-- ==== Sys2Proof/Word.lean ====
section
/-! DEFINITION. The word types of spec/00_scope.md R9 and the data types of values: four like things, floating-point
values and their two formats. Their arithmetic is in Machine/Fp.lean. -/

namespace Sys2Proof

/-- A byte: 8 bits (R9). -/
abbrev Byte := BitVec 8

/-- A word: 16 bits (R9). -/
abbrev Word := BitVec 16

/-- A command word: 32 bits (R91). -/
abbrev CmdWord := BitVec 32

/-- An index of one of the four channels (R7 `NCH`, R30). -/
abbrev ChanIdx := Fin 4

/-- Exactly four like things, one for each channel (R30). -/
structure Quad (α : Type) where
  q0 : α
  q1 : α
  q2 : α
  q3 : α
deriving DecidableEq, Repr

/-- A floating-point value (R11). `fin neg mant exp` is `(-1)^neg * mant * 2^exp`; a zero keeps its sign. NaN is one
value: no rule of the spec can tell two NaNs apart (log 10). -/
inductive Fp where
  | nan
  | inf (neg : Bool)
  | fin (neg : Bool) (mant : Nat) (exp : Int)
deriving DecidableEq, Repr

/-- The two formats `cfg.FILTER_FP` may name (R7). -/
inductive FpFormat where
  | binary32
  | binary64
deriving DecidableEq, Repr

end Sys2Proof
end

