-- ==== Sys2Proof/Machine/Fp.lean ====
section
/-! DEFINITION. Binary floating-point arithmetic (spec/00_scope.md R11): each operation computes the exact value and
rounds it once, to nearest, ties to even, in binary32 or binary64 (log 10). -/

namespace Sys2Proof.Machine

/-- The number of bits of a format's significand. -/
def fpPrecision (f : FpFormat) : Nat :=
  match f with
  | .binary32 => 24
  | .binary64 => 53

/-- The exponent of a format's smallest subnormal, as the exponent of an integer significand. -/
def fpMinExp (f : FpFormat) : Int :=
  match f with
  | .binary32 => -149
  | .binary64 => -1074

/-- The exponent of a format's largest finite value, as the exponent of an integer significand. -/
def fpMaxExp (f : FpFormat) : Int :=
  match f with
  | .binary32 => 104
  | .binary64 => 971

/-- `2^k` for the positive part of an exponent. -/
def pow2 (k : Int) : Nat := 2 ^ k.toNat

/-- The exponent `l` with `2^l ≤ num/den < 2^(l+1)`, for `num` and `den` at least 1. -/
def ratioLog2 (num den : Nat) : Int :=
  if num * pow2 ((Nat.log2 den : Int) - Nat.log2 num) < den * pow2 ((Nat.log2 num : Int) - Nat.log2 den) then
    (Nat.log2 num : Int) - Nat.log2 den - 1
  else (Nat.log2 num : Int) - Nat.log2 den

/-- `n/d` rounded to the nearest integer, a tie to the even one. -/
def roundHalfEven (n d : Nat) : Nat :=
  if d < 2 * (n % d) ∨ (2 * (n % d) = d ∧ n / d % 2 = 1) then n / d + 1 else n / d

/-- A rounded significand at exponent `q`, brought back to `precision` bits after a carry, overflowing to infinity. -/
def packFp (f : FpFormat) (neg : Bool) (m : Nat) (q : Int) : Fp :=
  if m = 0 then .fin neg 0 0
  else if m = 2 ^ fpPrecision f then
    if fpMaxExp f < q + 1 then .inf neg else .fin neg (2 ^ (fpPrecision f - 1)) (q + 1)
  else if fpMaxExp f < q then .inf neg
  else .fin neg m q

/-- The exponent at which `num/den * 2^e` is rounded: `precision` bits, but never below the subnormals'. -/
def roundExp (f : FpFormat) (num den : Nat) (e : Int) : Int :=
  max (e + ratioLog2 num den - (fpPrecision f - 1 : Nat)) (fpMinExp f)

/-- `(-1)^neg * num/den * 2^e` rounded to the format, to nearest, ties to even (R11). -/
def roundRatio (f : FpFormat) (neg : Bool) (num den : Nat) (e : Int) : Fp :=
  if num = 0 then .fin neg 0 0
  else
    packFp f neg
      (roundHalfEven (num * pow2 (e - roundExp f num den e)) (den * pow2 (roundExp f num den e - e)))
      (roundExp f num den e)

/-- `fp(n)` of an integer (R11, R261). -/
def fpOfInt (f : FpFormat) (n : Int) : Fp := roundRatio f (decide (n < 0)) n.natAbs 1 0

/-- `fp` of a decimal or binary fraction `num/den` (R11, R260). -/
def fpOfRatio (f : FpFormat) (neg : Bool) (num den : Nat) : Fp := roundRatio f neg num den 0

/-- A value rounded to a format; a value of the format is unchanged (log 11). -/
def fpConvert (f : FpFormat) (a : Fp) : Fp :=
  match a with
  | .nan => .nan
  | .inf neg => .inf neg
  | .fin neg m e => roundRatio f neg m 1 e

/-- A finite value (R331). -/
def fpIsFinite (a : Fp) : Bool :=
  match a with
  | .nan => false
  | .inf _ => false
  | .fin _ _ _ => true

/-- Negation. -/
def fpNeg (a : Fp) : Fp :=
  match a with
  | .nan => .nan
  | .inf neg => .inf (!neg)
  | .fin neg m e => .fin (!neg) m e

/-- The signed significand brought down to exponent `e0 ≤ e`. -/
def alignTo (neg : Bool) (m : Nat) (e e0 : Int) : Int :=
  if neg then -((m * pow2 (e - e0) : Nat) : Int) else ((m * pow2 (e - e0) : Nat) : Int)

/-- An exact sum `v * 2^e` rounded; an exact zero is positive unless both terms were negative. -/
def roundSum (f : FpFormat) (bothNeg : Bool) (v : Int) (e : Int) : Fp :=
  if v = 0 then .fin bothNeg 0 0 else roundRatio f (decide (v < 0)) v.natAbs 1 e

/-- Addition (R11). -/
def fpAdd (f : FpFormat) (a b : Fp) : Fp :=
  match a, b with
  | .nan, _ => .nan
  | .inf _, .nan => .nan
  | .inf n1, .inf n2 => if n1 = n2 then .inf n1 else .nan
  | .inf n1, .fin _ _ _ => .inf n1
  | .fin _ _ _, .nan => .nan
  | .fin _ _ _, .inf n2 => .inf n2
  | .fin n1 m1 e1, .fin n2 m2 e2 =>
    roundSum f (n1 && n2) (alignTo n1 m1 e1 (min e1 e2) + alignTo n2 m2 e2 (min e1 e2)) (min e1 e2)

/-- Subtraction (R11). -/
def fpSub (f : FpFormat) (a b : Fp) : Fp := fpAdd f a (fpNeg b)

/-- Multiplication (R11). -/
def fpMul (f : FpFormat) (a b : Fp) : Fp :=
  match a, b with
  | .nan, _ => .nan
  | .inf _, .nan => .nan
  | .inf n1, .inf n2 => .inf (n1 != n2)
  | .inf n1, .fin n2 m2 _ => if m2 = 0 then .nan else .inf (n1 != n2)
  | .fin _ _ _, .nan => .nan
  | .fin n1 m1 _, .inf n2 => if m1 = 0 then .nan else .inf (n1 != n2)
  | .fin n1 m1 e1, .fin n2 m2 e2 => roundRatio f (n1 != n2) (m1 * m2) 1 (e1 + e2)

/-- Division (R11, R235). -/
def fpDiv (f : FpFormat) (a b : Fp) : Fp :=
  match a, b with
  | .nan, _ => .nan
  | .inf _, .nan => .nan
  | .inf _, .inf _ => .nan
  | .inf n1, .fin n2 _ _ => .inf (n1 != n2)
  | .fin _ _ _, .nan => .nan
  | .fin n1 _ _, .inf n2 => .fin (n1 != n2) 0 0
  | .fin n1 m1 e1, .fin n2 m2 e2 =>
    if m2 = 0 then (if m1 = 0 then .nan else .inf (n1 != n2)) else roundRatio f (n1 != n2) m1 m2 (e1 - e2)

/-- `trunc` of a finite value: rounded toward zero (R11). NaN and infinity, which no conversion of the spec truncates,
give 0 (log 16). -/
def fpTrunc (a : Fp) : Int :=
  match a with
  | .nan => 0
  | .inf _ => 0
  | .fin neg m e =>
    if neg then -((m * pow2 e / pow2 (-e) : Nat) : Int) else ((m * pow2 e / pow2 (-e) : Nat) : Int)

end Sys2Proof.Machine
end

