-- ==== Sys2Proof/Config.lean ====
section
/-! DEFINITION. What an implementation or a RESET fixes: the constants of spec/00_scope.md R7, the configuration record
as the RESET command carries it (`RawCfg`) and as the block holds it once it is valid (`Cfg`), and the one free value,
the external memory's unwritten bytes. -/

namespace Sys2Proof

/-- A name for `cfg.INTERP` as the configuration gives it (R231); `other` is any name the source does not list. -/
inductive InterpName where
  | default
  | rh
  | linear
  | crux
  | cspline
  | anti
  | other
deriving DecidableEq, Repr

/-- A name for `cfg.FILTER` (R7, R331); `other` is any name that is none of the five. -/
inductive FilterName where
  | off
  | a500
  | a1200
  | a500e
  | a1200e
  | other
deriving DecidableEq, Repr

/-- A name for `cfg.FILTER_FP` (R7, R331); `other` is any name that is neither format. -/
inductive FpName where
  | binary32
  | binary64
  | other
deriving DecidableEq, Repr

/-- The five interpolation strategies (R231). -/
inductive Interp where
  | nearest
  | linear
  | crux
  | cspline
  | anti
deriving DecidableEq, Repr

/-- The five filter settings (R7, R269). -/
inductive FilterKind where
  | off
  | a500
  | a1200
  | a500e
  | a1200e
deriving DecidableEq, Repr

/-- The coefficients `K.bq[j]` of one biquad section (R260). -/
structure BiquadCoefs where
  b0 : Fp
  b1 : Fp
  b2 : Fp
  a1 : Fp
  a2 : Fp
deriving DecidableEq, Repr

/-- The coefficients of an enhanced topology (R260). -/
structure EnhancedCoefs where
  ap : Fp
  bq0 : BiquadCoefs
  bq1 : BiquadCoefs
deriving DecidableEq, Repr

/-- The coefficient sets `K[t]` of every topology (R260), all OPEN. -/
structure CoefSets where
  a500a1 : Fp
  a500a2 : Fp
  a1200a2 : Fp
  a500e : EnhancedCoefs
  a1200e : EnhancedCoefs
deriving DecidableEq, Repr

/-- The configuration record as the RESET command's sideband carries it (R330), before R331's check: names and numbers
of any size. -/
structure RawCfg where
  maxhpos : Nat
  sampleEvtime : Nat
  stereo : Bool
  interp : InterpName
  filter : FilterName
  filterFp : FpName
  coefs : CoefSets
  produceSound : Nat
  fastTier : Nat
  safetyClamp : Bool
  bufBytes : Nat
deriving DecidableEq, Repr

/-- The configuration record `cfg` the block holds after a RESET (R7). -/
structure Cfg where
  maxhpos : BitVec 16
  sampleEvtime : BitVec 28
  stereo : Bool
  interp : Interp
  filter : FilterKind
  fp : FpFormat
  coefs : CoefSets
  produceSound : Fin 4
  fastTier : Fin 4
  safetyClamp : Bool
  bufBytes : Nat
deriving DecidableEq, Repr

namespace Config

/-- What the external memory answers at an address nothing has written: a free value of the address (R72, R75, R76,
93_implementation_defined.md I20; log 5). -/
opaque memoryByte : Nat → Byte

/-- `PERIOD_MAX` (R7). -/
def periodMax : Nat := 65535

/-- `READ_MAX` = 4096 - 8 (R7). -/
def readMax : Nat := 4088

/-- Positive zero, the filter state's reset value (R49). -/
def fpZero : Fp := .fin false 0 0

/-- A biquad with every coefficient zero: `State.reset` runs no filter, so nothing reads it (log 3). -/
def zeroBiquad : BiquadCoefs := { b0 := fpZero, b1 := fpZero, b2 := fpZero, a1 := fpZero, a2 := fpZero }

/-- Enhanced coefficients, all zero (log 3). -/
def zeroEnhanced : EnhancedCoefs := { ap := fpZero, bq0 := zeroBiquad, bq1 := zeroBiquad }

/-- Coefficient sets, all zero (DESIGN CHOICE, log 3). -/
def zeroCoefs : CoefSets :=
  { a500a1 := fpZero, a500a2 := fpZero, a1200a2 := fpZero, a500e := zeroEnhanced, a1200e := zeroEnhanced }

/-- The configuration of R330's own example, as a RESET carries it (DESIGN CHOICE, unsafe: log 3). -/
def exampleRaw : RawCfg :=
  { maxhpos := 227, sampleEvtime := 80, stereo := true, interp := .default, filter := .off, filterFp := .binary64,
    coefs := zeroCoefs, produceSound := 2, fastTier := 0, safetyClamp := true, bufBytes := 2048 }

/-- The configuration of R330's own example, as the block holds it (DESIGN CHOICE, unsafe: log 3). -/
def exampleCfg : Cfg :=
  { maxhpos := 227, sampleEvtime := 80, stereo := true, interp := .nearest, filter := .off, fp := .binary64,
    coefs := zeroCoefs, produceSound := 2, fastTier := 0, safetyClamp := true, bufBytes := 2048 }

end Config
end Sys2Proof
end

