-- ==== Sys2Proof/Syntax.lean ====
section
/-! DEFINITION. The commands of spec/30_encoding.md R92 and R93: one constructor per row of spec/opcode_table.json, with
its operand at the width the encoding gives it. -/

namespace Sys2Proof

/-- The commands the block takes on its two input ports (R90, R92, R93). -/
inductive Instr where
  /-- AUD0LCH (R125). -/
  | aud0lch (data : Word)
  /-- AUD0LCL (R126). -/
  | aud0lcl (data : Word)
  /-- AUD0LEN (R124). -/
  | aud0len (data : Word)
  /-- AUD0PER (R122). -/
  | aud0per (data : Word)
  /-- AUD0VOL (R123). -/
  | aud0vol (data : Word)
  /-- AUD0DAT (R127). -/
  | aud0dat (data : Word)
  /-- AUD1LCH (R125). -/
  | aud1lch (data : Word)
  /-- AUD1LCL (R126). -/
  | aud1lcl (data : Word)
  /-- AUD1LEN (R124). -/
  | aud1len (data : Word)
  /-- AUD1PER (R122). -/
  | aud1per (data : Word)
  /-- AUD1VOL (R123). -/
  | aud1vol (data : Word)
  /-- AUD1DAT (R127). -/
  | aud1dat (data : Word)
  /-- AUD2LCH (R125). -/
  | aud2lch (data : Word)
  /-- AUD2LCL (R126). -/
  | aud2lcl (data : Word)
  /-- AUD2LEN (R124). -/
  | aud2len (data : Word)
  /-- AUD2PER (R122). -/
  | aud2per (data : Word)
  /-- AUD2VOL (R123). -/
  | aud2vol (data : Word)
  /-- AUD2DAT (R127). -/
  | aud2dat (data : Word)
  /-- AUD3LCH (R125). -/
  | aud3lch (data : Word)
  /-- AUD3LCL (R126). -/
  | aud3lcl (data : Word)
  /-- AUD3LEN (R124). -/
  | aud3len (data : Word)
  /-- AUD3PER (R122). -/
  | aud3per (data : Word)
  /-- AUD3VOL (R123). -/
  | aud3vol (data : Word)
  /-- AUD3DAT (R127). -/
  | aud3dat (data : Word)
  /-- DMACON, SET/CLR write (R129). -/
  | dmacon (data : Word)
  /-- INTREQ, SET/CLR write (R130). -/
  | intreq (data : Word)
  /-- ADKCON, SET/CLR write (R128). -/
  | adkcon (data : Word)
  /-- DMACONR, read (R131). -/
  | dmaconr
  /-- ADKCONR, read (R131). -/
  | adkconr
  /-- INTREQR, read (R131). -/
  | intreqr
  /-- SYNC (R210). -/
  | sync
  /-- LINE_SYNC (R212). -/
  | lineSync
  /-- SET_LED, syntax SETLED (R270). -/
  | setled (led : Bool)
  /-- SET_MAXHPOS, syntax SETMAXHPOS (R213). -/
  | setmaxhpos (value : BitVec 16)
  /-- SET_SAMPLE_EVTIME, syntax SETSEVT (R214). -/
  | setsevt (value : BitVec 28)
  /-- READ, control port (R285). -/
  | read (nbytes : Word)
  /-- RESET, control port (R330). -/
  | reset
deriving DecidableEq, Repr

/-- The two input ports (R90). -/
inductive Port where
  | register
  | control
deriving DecidableEq, Repr

end Sys2Proof
end

