-- ==== Sys2Proof/Machine/State.lean ====
section
/-! DEFINITION. The block's whole state (spec/10_state.md) as plain data, the environment it reads from and sends to, the
two reason types, and the state right after reset (spec/70_reset_and_hazards.md R332). -/

namespace Sys2Proof.Machine

/-- The external memory of R70: (address, byte) pairs, addresses strictly rising, no entry equal to what an unlisted
address reads as (log 5). -/
abbrev Memory := List Host.Cell

/-- One channel record (R30 to R40, R45). -/
structure Channel where
  /-- R31: the DMA sequencing state; 4, 6 and 7 are defects -/
  state : BitVec 3
  /-- R32 -/
  per : BitVec 16
  /-- R33: the length latch -/
  len : BitVec 16
  /-- R33: the working word-length counter -/
  wlen : BitVec 16
  /-- R34 -/
  vol : BitVec 7
  /-- R35 -/
  lc : BitVec 32
  /-- R36 -/
  pt : BitVec 32
  /-- R37 -/
  dat : Word
  /-- R37 -/
  nextdat : Word
  /-- R38 -/
  evtime : BitVec 32
  /-- R39: signed -/
  currentSample : Byte
  /-- R39: `last_sample[0]`, the most recent, signed -/
  lastSample0 : Byte
  /-- R39: `last_sample[1]`, signed -/
  lastSample1 : Byte
  /-- R39: `last_sample[2]`, signed -/
  lastSample2 : Byte
  /-- R40 -/
  dmaen : Bool
  /-- R40 -/
  intreq2 : Bool
  /-- R40 -/
  dataWritten : Bool
  /-- R45 -/
  adkMask : BitVec 32
deriving DecidableEq, Repr

/-- The stored past of one biquad section (R49). -/
structure Biquad where
  x0 : Fp
  x1 : Fp
  y0 : Fp
  y1 : Fp
deriving DecidableEq, Repr

/-- One filter record (R49). -/
structure FilterRec where
  rc1 : Fp
  rc2 : Fp
  rc3 : Fp
  bq0 : Biquad
  bq1 : Biquad
deriving DecidableEq, Repr

/-- The PCM output buffer (R50). `buf` is `B.buf[0 .. B.fill - 1]`; `B.fill` is its length (log 7). -/
structure PcmBuffer where
  buf : List Byte
  req : Nat
  waitingRead : Bool
deriving DecidableEq, Repr

/-- `G.fault_reason` (R51, R300). -/
inductive FaultReason where
  | configError
  | illegalCommand
  | timeReversal
  | protocolViolation
deriving DecidableEq, Repr

/-- What the environment may issue to the block (R80, R90, R91; log 1). -/
inductive Input where
  /-- a register-port command `(W, now)` -/
  | register (word : CmdWord) (now : BitVec 64)
  /-- a control-port command; `now` and `cfg` are RESET's sideband, READ reads neither -/
  | control (word : CmdWord) (now : BitVec 64) (cfg : RawCfg)
  /-- a host write of one byte of the external memory -/
  | hostWrite (addr : BitVec 32) (byte : Byte)
deriving DecidableEq, Repr

/-- What the block sends on its output port (R90). -/
inductive OutEvent where
  /-- an `Emit` block (R284) -/
  | emit (bytes : List Byte)
  /-- the return value of a REGR (R131) -/
  | answer (value : Word)
deriving DecidableEq, Repr

/-- The machine: the block's state, its configuration, and its environment as plain data. -/
structure State where
  /-- R30: the four channel records -/
  ch : Quad Channel
  /-- R41 -/
  lastCycles : BitVec 64
  /-- R42 -/
  pendingCycles : BitVec 64
  /-- R42: empty, or the register-port command whose catch-up is under way -/
  held : Option Instr
  /-- R43 -/
  sampleEvtime : BitVec 28
  /-- R43 -/
  nextSampleEvtime : BitVec 28
  /-- R43 -/
  maxhpos : BitVec 16
  /-- R44: `G.ADKCON[14:0]` -/
  adkcon : BitVec 15
  /-- R46: `G.DMACON[14:0]` -/
  dmacon : BitVec 15
  /-- R47: `G.INTREQ[10:7]`; bit c is channel c's -/
  intreq : BitVec 4
  /-- R48 -/
  led : Bool
  /-- R49: `F[L]` -/
  filterL : FilterRec
  /-- R49: `F[R]` -/
  filterR : FilterRec
  /-- R50 -/
  pcm : PcmBuffer
  /-- R51 -/
  faulted : Bool
  /-- R51 -/
  faultReason : Option FaultReason
  /-- R51 -/
  defectSeen : Bool
  /-- R7: the configuration record, fixed at reset -/
  cfg : Cfg
  /-- R333: no RESET has been taken since power-on (log 8) -/
  awaitingReset : Bool
  /-- R70: the external memory (environment) -/
  mem : Memory
  /-- R90: issued and not yet taken, oldest first (environment, log 1) -/
  inputs : List Input
  /-- R91: the sideband `now` of the command being executed (environment) -/
  now : BitVec 64
  /-- R91: the sideband `cfg` of the command being executed (environment) -/
  cfgIn : RawCfg
  /-- R90: sent on the output port, oldest first (environment, log 13) -/
  out : List OutEvent
deriving DecidableEq, Repr

/-- Why the machine stops. The block's own fatal faults (R300) are no stops: they are next states with `faulted` set. -/
inductive Fault where
  /-- Raised by a catch-up whose scheduler makes no progress: an active channel, or the sample clock, reloads a countdown
  of 0. R205 shows it never happens in a state that the rules can reach. Safe: the model stops where the rules' own loop
  would not end (log 9). -/
  | noProgress
deriving DecidableEq, Repr

/-- Why an instruction has no meaning. -/
inductive Refusal where
  /-- Raised by an arm of `exec` whose instruction has no meaning; no arm raises it. Safe: the model stops. -/
  | notModelled (mnemonic : String)
deriving DecidableEq, Repr

/-- A channel record after reset (R332). -/
def Channel.reset : Channel :=
  { state := 0, per := 65535, len := 0, wlen := 0, vol := 0, lc := 0, pt := 0, dat := 0, nextdat := 0, evtime := 0,
    currentSample := 0, lastSample0 := 0, lastSample1 := 0, lastSample2 := 0, dmaen := false, intreq2 := false,
    dataWritten := false, adkMask := 0xFFFFFFFF }

/-- A biquad's past after reset (R49, R332). -/
def Biquad.reset : Biquad := { x0 := Config.fpZero, x1 := Config.fpZero, y0 := Config.fpZero, y1 := Config.fpZero }

/-- A filter record after reset (R49, R332). -/
def FilterRec.reset : FilterRec :=
  { rc1 := Config.fpZero, rc2 := Config.fpZero, rc3 := Config.fpZero, bq0 := Biquad.reset, bq1 := Biquad.reset }

/-- The PCM buffer after reset (R50, R332). -/
def PcmBuffer.reset : PcmBuffer := { buf := [], req := 0, waitingRead := true }

/-- The machine right after `@0 RESET` with R330's example configuration (R332; logs 2, 3, 4). -/
def State.reset : State :=
  { ch := { q0 := Channel.reset, q1 := Channel.reset, q2 := Channel.reset, q3 := Channel.reset }
    lastCycles := 0
    pendingCycles := 0
    held := none
    sampleEvtime := 80
    nextSampleEvtime := 80
    maxhpos := 227
    adkcon := 0
    dmacon := 0
    intreq := 0
    led := false
    filterL := FilterRec.reset
    filterR := FilterRec.reset
    pcm := PcmBuffer.reset
    faulted := false
    faultReason := none
    defectSeen := false
    cfg := Config.exampleCfg
    awaitingReset := false
    mem := []
    inputs := []
    now := 0
    cfgIn := Config.exampleRaw
    out := [] }

end Sys2Proof.Machine
end

