-- ==== Sys2Proof/Machine/Ops.lean ====
section
/-! DEFINITION. The named operations over the machine's state: the external memory (spec/20_memory.md), the channel
records, the interrupt requests (spec/60_exceptions.md R303), taking a fault (R300) and the return from it, RESET
(spec/70_reset_and_hazards.md R332). -/

namespace Sys2Proof

/-- The member of channel `c`. -/
def Quad.get {α : Type} (q : Quad α) (c : ChanIdx) : α :=
  match c with
  | 0 => q.q0
  | 1 => q.q1
  | 2 => q.q2
  | 3 => q.q3

/-- `q` with the member of channel `c` replaced. -/
def Quad.set {α : Type} (q : Quad α) (c : ChanIdx) (a : α) : Quad α :=
  match c with
  | 0 => { q with q0 := a }
  | 1 => { q with q1 := a }
  | 2 => { q with q2 := a }
  | 3 => { q with q3 := a }

/-- `f` on every member. -/
def Quad.map {α β : Type} (f : α → β) (q : Quad α) : Quad β :=
  { q0 := f q.q0, q1 := f q.q1, q2 := f q.q2, q3 := f q.q3 }

namespace Machine

/-- One byte of the external memory: as listed, else the free value of its address (R72, I20; log 5). -/
def Memory.read (m : Memory) (a : Nat) : Byte :=
  match m with
  | [] => Config.memoryByte a
  | (k, b) :: rest => if k = a then b else Memory.read rest a

/-- The memory with byte `b` at address `a`, in canonical form: writing what an unlisted address reads as unlists it. -/
def Memory.write (m : Memory) (a : Nat) (b : Byte) : Memory :=
  match m with
  | [] => if b = Config.memoryByte a then [] else [(a, b)]
  | (k, v) :: rest =>
    if a < k then (if b = Config.memoryByte a then (k, v) :: rest else (a, b) :: (k, v) :: rest)
    else if a = k then (if b = Config.memoryByte a then rest else (a, b) :: rest)
    else (k, v) :: Memory.write rest a b

/-- The canonical form of the external memory: addresses strictly rising, inside the 2^32 bytes of R70, no entry equal to
what an unlisted address reads as. -/
abbrev Memory.wf (m : Memory) : Prop :=
  m.Pairwise (fun x y => x.1 < y.1) ∧ ∀ x ∈ m, x.1 < 2 ^ 32 ∧ x.2 ≠ Config.memoryByte x.1

/-- `MemRead(addr, 2)`: the byte at `addr` is `W[15:8]`, the byte at `addr + 1` is `W[7:0]` (R72). R74 gives no behaviour
for an odd address, which no run reads: there it is the bytes at `addr` and `addr + 1` modulo 2^32, the model's choice
(DESIGN CHOICE, log 16). -/
def memRead (s : State) (addr : BitVec 32) : Word :=
  Memory.read s.mem addr.toNat ++ Memory.read s.mem (addr + 1).toNat

/-- The record of channel `c`. -/
def State.chan (s : State) (c : ChanIdx) : Channel := s.ch.get c

/-- The state with channel `c`'s record changed by `f`. -/
def State.modChan (s : State) (c : ChanIdx) (f : Channel → Channel) : State :=
  { s with ch := s.ch.set c (f (s.ch.get c)) }

/-- `raise_irq(c)`: `G.INTREQ[7+c] <- 1` (R303). -/
def raiseIrq (c : ChanIdx) (s : State) : State := { s with intreq := s.intreq ||| (1#4 <<< c.val) }

/-- Bytes appended to what the output port has sent. -/
def send (e : OutEvent) (s : State) : State := { s with out := s.out ++ [e] }

/-- `fault F`: the sticky fault bit and its reason, and nothing else (R300). -/
def takeFault (f : FaultReason) (s : State) : State := { s with faulted := true, faultReason := some f }

/-- The block ignores every command except RESET: it is faulted (R300), or no RESET has been taken yet (R333). -/
def deaf (s : State) : Bool := s.faulted || s.awaitingReset

/-- The state after a RESET with a valid configuration, the return from a fault: every field at its value in R332, with
`G.last_cycles <- now`. The environment (memory, inputs, sideband, what was sent) is not the block's and stays. -/
def afterReset (now : BitVec 64) (cfg : Cfg) (s : State) : State :=
  { s with
    ch := { q0 := Channel.reset, q1 := Channel.reset, q2 := Channel.reset, q3 := Channel.reset }
    lastCycles := now
    pendingCycles := 0
    held := none
    sampleEvtime := cfg.sampleEvtime
    nextSampleEvtime := cfg.sampleEvtime
    maxhpos := cfg.maxhpos
    adkcon := 0
    dmacon := 0
    intreq := 0
    led := false
    filterL := FilterRec.reset
    filterR := FilterRec.reset
    pcm := PcmBuffer.reset
    faulted := false
    faultReason := none
    defectSeen := false
    cfg := cfg
    awaitingReset := false }

end Machine
end Sys2Proof
end

