-- ==== Sys2Proof/Machine/Operands.lean ====
section
/-! DEFINITION. The operand forms: the value maps of the register writes (spec/40_register_writes.md), the SET/CLR form,
READ's count (spec/45_output_buffer.md R285), and RESET's configuration record (spec/70_reset_and_hazards.md R331). -/

namespace Sys2Proof.Machine

/-- `HALF_LINE` = `G.maxhpos div 2` (R8, R121). -/
def halfLine (s : State) : Nat := s.maxhpos.toNat / 2

/-- The PER value map `per_rule(v)` (R121). -/
def perRule (s : State) (v : Word) : BitVec 16 :=
  let p0 := if v.toNat = 0 then Config.periodMax else v.toNat
  let p1 := if s.cfg.safetyClamp = true ∧ p0 < 16 then 16 else p0
  let p2 := if s.cfg.fastTier.val < 3 ∧ p1 < halfLine s then halfLine s else p1
  BitVec.ofNat 16 p2

/-- The VOL value map `vol_rule(v)` (R123). -/
def volRule (v : Word) : BitVec 7 := if v.getLsbD 6 then 63#7 else (v.extractLsb' 0 6).setWidth 7

/-- The LCL operand: bit 0 forced to 0 (R126). -/
def lclRule (v : Word) : Word := v &&& 0xFFFE#16

/-- A SET/CLR write on a register of stored bits: bit 15 of the data selects set or clear of the bits given (R128). -/
def setClr {n : Nat} (old bits : BitVec n) (set : Bool) : BitVec n := if set then old ||| bits else old &&& ~~~bits

/-- `sext_8` of a byte (R10, R230). -/
def sext8 (b : Byte) : Int := b.toInt

/-- `sat16` (R10). -/
def sat16 (v : Int) : Int := min (max v (-32768)) 32767

/-- `FRAME`: 4 bytes in stereo, 2 in mono (R280). -/
def frameBytes (stereo : Bool) : Nat := if stereo then 4 else 2

/-- READ's count: clamped to READ_MAX, rounded down to whole frames (R285). -/
def readCount (stereo : Bool) (nbytes : Word) : Nat :=
  min nbytes.toNat Config.readMax - min nbytes.toNat Config.readMax % frameBytes stereo

/-- The strategy a name selects (R231); none for a name that is a configuration error. -/
def interpOfName (n : InterpName) : Option Interp :=
  match n with
  | .default => some .nearest
  | .rh => some .linear
  | .linear => some .linear
  | .crux => some .crux
  | .cspline => some .cspline
  | .anti => some .anti
  | .other => none

/-- The filter setting a name selects (R331). -/
def filterOfName (n : FilterName) : Option FilterKind :=
  match n with
  | .off => some .off
  | .a500 => some .a500
  | .a1200 => some .a1200
  | .a500e => some .a500e
  | .a1200e => some .a1200e
  | .other => none

/-- The format a name selects (R331). -/
def formatOfName (n : FpName) : Option FpFormat :=
  match n with
  | .binary32 => some .binary32
  | .binary64 => some .binary64
  | .other => none

/-- A biquad's coefficients in the filter's format (R260; log 11). -/
def convertBiquad (f : FpFormat) (k : BiquadCoefs) : BiquadCoefs :=
  { b0 := fpConvert f k.b0, b1 := fpConvert f k.b1, b2 := fpConvert f k.b2, a1 := fpConvert f k.a1,
    a2 := fpConvert f k.a2 }

/-- An enhanced topology's coefficients in the filter's format (R260; log 11). -/
def convertEnhanced (f : FpFormat) (k : EnhancedCoefs) : EnhancedCoefs :=
  { ap := fpConvert f k.ap, bq0 := convertBiquad f k.bq0, bq1 := convertBiquad f k.bq1 }

/-- Every coefficient set in the filter's format (R260; log 11). -/
def convertCoefs (f : FpFormat) (k : CoefSets) : CoefSets :=
  { a500a1 := fpConvert f k.a500a1, a500a2 := fpConvert f k.a500a2, a1200a2 := fpConvert f k.a1200a2,
    a500e := convertEnhanced f k.a500e, a1200e := convertEnhanced f k.a1200e }

/-- Every coefficient of a biquad is finite. -/
def biquadFinite (k : BiquadCoefs) : Bool :=
  fpIsFinite k.b0 && fpIsFinite k.b1 && fpIsFinite k.b2 && fpIsFinite k.a1 && fpIsFinite k.a2

/-- Every coefficient of an enhanced topology is finite. -/
def enhancedFinite (k : EnhancedCoefs) : Bool := fpIsFinite k.ap && biquadFinite k.bq0 && biquadFinite k.bq1

/-- The coefficients of the selected topology are finite (R331). -/
def coefsFinite (t : FilterKind) (k : CoefSets) : Bool :=
  match t with
  | .off => true
  | .a500 => fpIsFinite k.a500a1 && fpIsFinite k.a500a2
  | .a1200 => fpIsFinite k.a1200a2
  | .a500e => enhancedFinite k.a500e
  | .a1200e => enhancedFinite k.a1200e

/-- The ranges of R331. -/
def rangesValid (r : RawCfg) : Bool :=
  decide (1 ≤ r.maxhpos ∧ r.maxhpos ≤ 65535 ∧ 1 ≤ r.sampleEvtime ∧ r.sampleEvtime < 2 ^ 28 ∧ r.produceSound ≤ 3 ∧
    r.fastTier ≤ 3 ∧ 1 ≤ r.bufBytes ∧ r.bufBytes ≤ 4088 ∧ r.bufBytes % frameBytes r.stereo = 0)

/-- The record the block holds, of a raw one whose names have been read. -/
def buildCfg (r : RawCfg) (i : Interp) (t : FilterKind) (f : FpFormat) : Cfg :=
  { maxhpos := BitVec.ofNat 16 r.maxhpos, sampleEvtime := BitVec.ofNat 28 r.sampleEvtime, stereo := r.stereo, interp := i,
    filter := t, fp := f, coefs := convertCoefs f r.coefs, produceSound := Fin.ofNat 4 r.produceSound,
    fastTier := Fin.ofNat 4 r.fastTier, safetyClamp := r.safetyClamp, bufBytes := r.bufBytes }

/-- `valid(cfg)` (R331): the configuration a RESET's sideband names, none where it is invalid. -/
def loadCfg (r : RawCfg) : Option Cfg :=
  match interpOfName r.interp, filterOfName r.filter, formatOfName r.filterFp with
  | some i, some t, some f =>
    if rangesValid r && coefsFinite t (convertCoefs f r.coefs) then some (buildCfg r i t f) else none
  | _, _, _ => none

end Sys2Proof.Machine
end

