-- ==== Sys2Proof/Machine/Flags.lean ====
section
/-! DEFINITION. The control bits the rules compute and test: attachment (spec/41_channel_state_machine.md R161), the mask
of R45, the DMA enable of R46, the interrupt request bit of R47, and the output stall (spec/45_output_buffer.md R283). -/

namespace Sys2Proof.Machine

/-- `audav(c)` = `G.ADKCON[c]` (R161). -/
def audav (s : State) (c : ChanIdx) : Bool := s.adkcon.getLsbD c.val

/-- `audap(c)` = `G.ADKCON[c+4]` (R161). -/
def audap (s : State) (c : ChanIdx) : Bool := s.adkcon.getLsbD (c.val + 4)

/-- `napnav(c)` = `audav(c) or not audap(c)` (R161). -/
def napnav (s : State) (c : ChanIdx) : Bool := audav s c || !audap s c

/-- `adk_mask(c)` as a function of ADKCON (R45). -/
def adkMaskOf (adkcon : BitVec 15) (c : ChanIdx) : BitVec 32 :=
  if adkcon.getLsbD c.val || adkcon.getLsbD (c.val + 4) then 0x00000000#32 else 0xFFFFFFFF#32

/-- `ena(c)` = `G.DMACON[9] and G.DMACON[c]` (R46). -/
def ena (s : State) (c : ChanIdx) : Bool := s.dmacon.getLsbD 9 && s.dmacon.getLsbD c.val

/-- `G.INTREQ[7+c]`, which is also the interrupt output `irq[c]` (R47, R303). -/
def irq (s : State) (c : ChanIdx) : Bool := s.intreq.getLsbD c.val

/-- A channel is active when its state is not 0 (R13). -/
def Channel.active (k : Channel) : Bool := k.state != 0

/-- The block produces frames: `cfg.PRODUCE_SOUND >= 2` (R203). -/
def producing (s : State) : Bool := decide (2 ≤ s.cfg.produceSound.val)

/-- `stalled()` (R283). -/
def stalled (s : State) : Bool := s.pcm.waitingRead && producing s

/-- The value INTREQR reads: the four request bits at 10..7, every other bit 0 (R131). -/
def intreqWord (s : State) : Word := s.intreq.setWidth 16 <<< 7

end Sys2Proof.Machine
end

