-- ==== Sys2Proof/Machine/Handlers.lean ====
section
/-! DEFINITION. The channel state machine (spec/41_channel_state_machine.md R160 to R169): the handlers of states 1, 5, 2
and 3, the defect, and the line-sync services. -/

namespace Sys2Proof.Machine

/-- `push_history(c)` (R160). -/
def pushHistory (k : Channel) : Channel :=
  { k with lastSample2 := k.lastSample1, lastSample1 := k.lastSample0, lastSample0 := k.currentSample }

/-- The disabled-sound override: `if cfg.PRODUCE_SOUND = 0: ch.per <- 65535` (R163, R164, R165). -/
def soundOverride (s : State) (k : Channel) : Channel :=
  if s.cfg.produceSound.val = 0 then { k with per := 65535 } else k

/-- `ch.evtime <- ch.per` (R127, R163, R164, R165). -/
def startInterval (k : Channel) : Channel := { k with evtime := k.per.setWidth 32 }

/-- The high byte of `dat` becomes the current sample (R163, R165). -/
def playHigh (k : Channel) : Channel := { k with currentSample := k.dat.extractLsb' 8 8 }

/-- The low byte of `dat` becomes the current sample (R164). -/
def playLow (k : Channel) : Channel := { k with currentSample := k.dat.extractLsb' 0 8 }

/-- The word counter after the state-1 handler: not decremented at 1 (R162). -/
def armWlen (k : Channel) : BitVec 16 := if k.wlen = 1 then 1 else k.wlen - 1

/-- State 1, "armed after first hsync" (R162). -/
def handler1 (c : ChanIdx) (s : State) : State :=
  (raiseIrq c s).modChan c fun k =>
    { k with evtime := s.maxhpos.setWidth 32, state := 5, wlen := armWlen k, nextdat := memRead s k.pt, pt := k.pt + 2 }

/-- State 5, "armed after second hsync" (R163). -/
def handler5 (c : ChanIdx) (s : State) : State :=
  s.modChan c fun k0 =>
    let k := startInterval (soundOverride s k0)
    let k := playHigh (pushHistory { k with dat := k.nextdat })
    { k with state := 2, dataWritten := k.dataWritten || napnav s c }

/-- The part of state 2 that every channel runs: history, low byte, interval, state 3 (R164). -/
def advance2 (c : ChanIdx) (s : State) : State :=
  s.modChan c fun k => { startInterval (playLow (pushHistory (soundOverride s k))) with state := 3 }

/-- The period attachment's target: `if c < 3: ch[c+1].per <- per_rule(ch.dat)` (R164). -/
def attachPer (c : ChanIdx) (v : Word) (s : State) : State :=
  match c with
  | 0 => s.modChan 1 fun k => { k with per := perRule s v }
  | 1 => s.modChan 2 fun k => { k with per := perRule s v }
  | 2 => s.modChan 3 fun k => { k with per := perRule s v }
  | 3 => s

/-- The volume attachment's target: `if c < 3: ch[c+1].vol <- vol_rule(ch.dat)` (R165). -/
def attachVol (c : ChanIdx) (v : Word) (s : State) : State :=
  match c with
  | 0 => s.modChan 1 fun k => { k with vol := volRule v }
  | 1 => s.modChan 2 fun k => { k with vol := volRule v }
  | 2 => s.modChan 3 fun k => { k with vol := volRule v }
  | 3 => s

/-- `raise_irq(c)` under a condition. -/
def raiseIrqIf (b : Bool) (c : ChanIdx) (s : State) : State := if b then raiseIrq c s else s

/-- The period-attachment steps of state 2 (R164). -/
def periodAttach (c : ChanIdx) (s : State) : State :=
  let k := s.chan c
  let s := raiseIrqIf (k.intreq2 && k.dmaen) c s
  let s := s.modChan c fun k =>
    { k with intreq2 := false, dat := k.nextdat, dataWritten := k.dataWritten || k.dmaen }
  attachPer c k.nextdat s

/-- State 2, "first half played" (R164). -/
def handler2 (c : ChanIdx) (s : State) : State :=
  if audap s c then periodAttach c (advance2 c s) else advance2 c s

/-- The stop of state 3: idle, history and current sample zeroed (R165). -/
def stopChannel (s : State) (k : Channel) : Channel :=
  { startInterval (soundOverride s k) with
    state := 0, lastSample0 := 0, lastSample1 := 0, lastSample2 := 0, currentSample := 0 }

/-- The channel's own fields in the branch of state 3 that goes on (R165). -/
def continueChannel (s : State) (c : ChanIdx) (k0 : Channel) : Channel :=
  let k := startInterval (soundOverride s k0)
  let k := playHigh (pushHistory { k with state := 2, intreq2 := false, dat := k.nextdat })
  { k with dataWritten := k.dataWritten || (k.dmaen && napnav s c) }

/-- The interrupt condition of state 3: `(intreq2 and dmaen and napnav) or (napnav and not dmaen)` (R165). -/
def irq3 (s : State) (c : ChanIdx) : Bool :=
  ((s.chan c).intreq2 && (s.chan c).dmaen && napnav s c) || (napnav s c && !(s.chan c).dmaen)

/-- State 3, "second half played" (R165). -/
def handler3 (c : ChanIdx) (s : State) : State :=
  if (s.chan c).dmaen = false ∧ irq s c = true then s.modChan c (stopChannel s)
  else
    let s1 := (raiseIrqIf (irq3 s c) c s).modChan c (continueChannel s c)
    if audav s c then attachVol c (s.chan c).nextdat s1 else s1

/-- Any other state value: a defect (R166). -/
def handlerDefect (c : ChanIdx) (s : State) : State :=
  { s.modChan c fun k => { k with state := 0 } with defectSeen := true }

/-- `advance_channel(c)` (R169). -/
def advanceChannel (c : ChanIdx) (s : State) : State :=
  if (s.chan c).state = 1 then handler1 c s
  else if (s.chan c).state = 5 then handler5 c s
  else if (s.chan c).state = 2 then handler2 c s
  else if (s.chan c).state = 3 then handler3 c s
  else handlerDefect c s

/-- `refill(c)` (R168). -/
def refill (c : ChanIdx) (s : State) : State :=
  s.modChan c fun k0 =>
    let k := { k0 with dataWritten := false, nextdat := memRead s k0.pt, pt := k0.pt + 2 }
    if k.wlen = 1 then { k with pt := k.lc, wlen := k.len, intreq2 := true } else { k with wlen := k.wlen - 1 }

/-- The start sequence's writes, just before it runs the state-1 handler (R167). -/
def startChannel (k : Channel) : Channel :=
  { k with
    state := 1, pt := k.lc, wlen := k.len, dmaen := true, dataWritten := false, intreq2 := false, evtime := 0 }

/-- The DMA start of an idle enabled channel (R167). -/
def dmaStart (c : ChanIdx) (s : State) : State :=
  if (s.chan c).state = 0 ∧ ena s c = true then advanceChannel c (s.modChan c startChannel) else s

/-- The line service of channel `c` (R167). -/
def lineService (c : ChanIdx) (s : State) : State :=
  let s1 := (dmaStart c s).modChan c fun k => { k with dmaen := ena s c }
  if (s1.chan c).dataWritten = true ∧ (s1.chan c).dmaen = true then refill c s1 else s1

end Sys2Proof.Machine
end

