-- ==== Sys2Proof/Machine/ChannelRegs.lean ====
section
/-! DEFINITION. The effects of the channel register writes (spec/40_register_writes.md R122 to R127): what each does once
its catch-up is done. -/

namespace Sys2Proof.Machine

/-- LCH: the high half of the location pointer (R125). -/
def writeLch (c : ChanIdx) (data : Word) (s : State) : State :=
  s.modChan c fun k => { k with lc := data ++ k.lc.extractLsb' 0 16 }

/-- LCL: the low half of the location pointer, bit 0 forced to 0 (R126). -/
def writeLcl (c : ChanIdx) (data : Word) (s : State) : State :=
  s.modChan c fun k => { k with lc := k.lc.extractLsb' 16 16 ++ lclRule data }

/-- LEN: the length latch (R124). -/
def writeLen (c : ChanIdx) (data : Word) (s : State) : State := s.modChan c fun k => { k with len := data }

/-- PER: the period (R122). -/
def writePer (c : ChanIdx) (data : Word) (s : State) : State := s.modChan c fun k => { k with per := perRule s data }

/-- VOL: the volume (R123). -/
def writeVol (c : ChanIdx) (data : Word) (s : State) : State := s.modChan c fun k => { k with vol := volRule data }

/-- The DAT write starts the channel: it is idle and its interrupt bit is clear (R127). -/
def datStarts (c : ChanIdx) (s : State) : Bool := decide ((s.chan c).state = 0) && !irq s c

/-- The channel's own fields after a DAT write (R127). -/
def datChannel (starts : Bool) (data : Word) (k : Channel) : Channel :=
  startInterval { k with dat := data, state := if starts then 2 else k.state }

/-- DAT: the data word (R127). -/
def writeDat (c : ChanIdx) (data : Word) (s : State) : State :=
  (raiseIrqIf (datStarts c s) c s).modChan c (datChannel (datStarts c s) data)

/-- AUD0LCH: `ch[0].lc[31:16] <- data` (R125). -/
def effectAud0Lch (data : Word) (s : State) : State := writeLch 0 data s

/-- AUD0LCL: `ch[0].lc[15:0] <- data & 0xFFFE` (R126). -/
def effectAud0Lcl (data : Word) (s : State) : State := writeLcl 0 data s

/-- AUD0LEN: `ch[0].len <- data` (R124). -/
def effectAud0Len (data : Word) (s : State) : State := writeLen 0 data s

/-- AUD0PER: `ch[0].per <- per_rule(data)` (R122). -/
def effectAud0Per (data : Word) (s : State) : State := writePer 0 data s

/-- AUD0VOL: `ch[0].vol <- vol_rule(data)` (R123). -/
def effectAud0Vol (data : Word) (s : State) : State := writeVol 0 data s

/-- AUD0DAT: store, start an idle channel, restart the countdown (R127). -/
def effectAud0Dat (data : Word) (s : State) : State := writeDat 0 data s

/-- AUD1LCH: `ch[1].lc[31:16] <- data` (R125). -/
def effectAud1Lch (data : Word) (s : State) : State := writeLch 1 data s

/-- AUD1LCL: `ch[1].lc[15:0] <- data & 0xFFFE` (R126). -/
def effectAud1Lcl (data : Word) (s : State) : State := writeLcl 1 data s

/-- AUD1LEN: `ch[1].len <- data` (R124). -/
def effectAud1Len (data : Word) (s : State) : State := writeLen 1 data s

/-- AUD1PER: `ch[1].per <- per_rule(data)` (R122). -/
def effectAud1Per (data : Word) (s : State) : State := writePer 1 data s

/-- AUD1VOL: `ch[1].vol <- vol_rule(data)` (R123). -/
def effectAud1Vol (data : Word) (s : State) : State := writeVol 1 data s

/-- AUD1DAT: store, start an idle channel, restart the countdown (R127). -/
def effectAud1Dat (data : Word) (s : State) : State := writeDat 1 data s

/-- AUD2LCH: `ch[2].lc[31:16] <- data` (R125). -/
def effectAud2Lch (data : Word) (s : State) : State := writeLch 2 data s

/-- AUD2LCL: `ch[2].lc[15:0] <- data & 0xFFFE` (R126). -/
def effectAud2Lcl (data : Word) (s : State) : State := writeLcl 2 data s

/-- AUD2LEN: `ch[2].len <- data` (R124). -/
def effectAud2Len (data : Word) (s : State) : State := writeLen 2 data s

/-- AUD2PER: `ch[2].per <- per_rule(data)` (R122). -/
def effectAud2Per (data : Word) (s : State) : State := writePer 2 data s

/-- AUD2VOL: `ch[2].vol <- vol_rule(data)` (R123). -/
def effectAud2Vol (data : Word) (s : State) : State := writeVol 2 data s

/-- AUD2DAT: store, start an idle channel, restart the countdown (R127). -/
def effectAud2Dat (data : Word) (s : State) : State := writeDat 2 data s

/-- AUD3LCH: `ch[3].lc[31:16] <- data` (R125). -/
def effectAud3Lch (data : Word) (s : State) : State := writeLch 3 data s

/-- AUD3LCL: `ch[3].lc[15:0] <- data & 0xFFFE` (R126). -/
def effectAud3Lcl (data : Word) (s : State) : State := writeLcl 3 data s

/-- AUD3LEN: `ch[3].len <- data` (R124). -/
def effectAud3Len (data : Word) (s : State) : State := writeLen 3 data s

/-- AUD3PER: `ch[3].per <- per_rule(data)` (R122). -/
def effectAud3Per (data : Word) (s : State) : State := writePer 3 data s

/-- AUD3VOL: `ch[3].vol <- vol_rule(data)` (R123). -/
def effectAud3Vol (data : Word) (s : State) : State := writeVol 3 data s

/-- AUD3DAT: store, start an idle channel, restart the countdown (R127). -/
def effectAud3Dat (data : Word) (s : State) : State := writeDat 3 data s

end Sys2Proof.Machine
end

