-- ==== Sys2Proof/Machine/ControlRegs.lean ====
section
/-! DEFINITION. The effects of the control-register writes and of the reads (spec/40_register_writes.md R128 to R131). -/

namespace Sys2Proof.Machine

/-- Every channel's mask recomputed from ADKCON (R45, R128). -/
def recomputeMasks (adkcon : BitVec 15) (q : Quad Channel) : Quad Channel :=
  { q0 := { q.q0 with adkMask := adkMaskOf adkcon 0 }
    q1 := { q.q1 with adkMask := adkMaskOf adkcon 1 }
    q2 := { q.q2 with adkMask := adkMaskOf adkcon 2 }
    q3 := { q.q3 with adkMask := adkMaskOf adkcon 3 } }

/-- ADKCON: the SET/CLR update of the 15 stored bits, then every mask (R128). -/
def effectAdkcon (data : Word) (s : State) : State :=
  let adkcon := setClr s.adkcon (data.extractLsb' 0 15) (data.getLsbD 15)
  { s with adkcon := adkcon, ch := recomputeMasks adkcon s.ch }

/-- DMACON: the SET/CLR update of the 15 stored bits, nothing else until a LINE_SYNC (R129). -/
def effectDmacon (data : Word) (s : State) : State :=
  { s with dmacon := setClr s.dmacon (data.extractLsb' 0 15) (data.getLsbD 15) }

/-- INTREQ: the SET/CLR update of the four request bits, from `data[10:7]` (R130). -/
def effectIntreq (data : Word) (s : State) : State :=
  { s with intreq := setClr s.intreq (data.extractLsb' 7 4) (data.getLsbD 15) }

/-- DMACONR: the 15 stored bits, bit 15 reads 0 (R131). -/
def effectDmaconr (s : State) : State := send (.answer (s.dmacon.setWidth 16)) s

/-- ADKCONR: the 15 stored bits, bit 15 reads 0 (R131). -/
def effectAdkconr (s : State) : State := send (.answer (s.adkcon.setWidth 16)) s

/-- INTREQR: the four request bits at 10..7, every other bit 0 (R131). -/
def effectIntreqr (s : State) : State := send (.answer (intreqWord s)) s

end Sys2Proof.Machine
end

