-- ==== Sys2Proof/Machine/Filter.lean ====
section
/-! DEFINITION. The analog filter pipeline (spec/44_filter.md R260 to R269): four topologies and OFF, the LED selection
and the conversion to 16 bits. -/

namespace Sys2Proof.Machine

/-- `HB1` = 1.35 in the filter's format (R260). -/
def hb1 (f : FpFormat) : Fp := fpOfRatio f false 135 100

/-- `HB2` = 0.35 in the filter's format (R260). -/
def hb2 (f : FpFormat) : Fp := fpOfRatio f false 35 100

/-- `G98` = 0.98 in the filter's format (R260). -/
def g98 (f : FpFormat) : Fp := fpOfRatio f false 98 100

/-- One step of an RC lowpass: `k·x + (1 − k)·prev` (R262). -/
def lowpass (f : FpFormat) (k x prev : Fp) : Fp :=
  fpAdd f (fpMul f k x) (fpMul f (fpSub f (fpOfInt f 1) k) prev)

/-- The highboost stage: `HB1·rc2 − HB2·rc3` (R262). -/
def highboost (f : FpFormat) (rc2 rc3 : Fp) : Fp := fpSub f (fpMul f (hb1 f) rc2) (fpMul f (hb2 f) rc3)

/-- The output of a biquad section in direct form I (R264). -/
def biquadOut (f : FpFormat) (q : Biquad) (k : BiquadCoefs) (x : Fp) : Fp :=
  fpSub f
    (fpSub f (fpAdd f (fpAdd f (fpMul f k.b0 x) (fpMul f k.b1 q.x0)) (fpMul f k.b2 q.x1)) (fpMul f k.a1 q.y0))
    (fpMul f k.a2 q.y1)

/-- A biquad's past after input `x` and output `y` (R264). -/
def biquadPush (q : Biquad) (x y : Fp) : Biquad := { x0 := x, x1 := q.x0, y0 := y, y1 := q.y0 }

/-- What one sample through a topology gives: the updated record and the two outputs (R261). -/
structure FilterStep where
  record : FilterRec
  normal : Fp
  led : Fp
deriving DecidableEq, Repr

/-- A500 (R262). -/
def filterA500 (f : FpFormat) (k : CoefSets) (r : FilterRec) (xin : Fp) : FilterStep :=
  let rc1 := lowpass f k.a500a1 xin r.rc1
  let rc2 := lowpass f k.a500a2 rc1 r.rc2
  let rc3 := highboost f rc2 r.rc3
  { record := { r with rc1 := rc1, rc2 := rc2, rc3 := rc3 }, normal := rc1, led := fpMul f (g98 f) rc3 }

/-- A1200: no first RC stage (R263). -/
def filterA1200 (f : FpFormat) (k : CoefSets) (r : FilterRec) (xin : Fp) : FilterStep :=
  let rc2 := lowpass f k.a1200a2 xin r.rc2
  let rc3 := highboost f rc2 r.rc3
  { record := { r with rc2 := rc2, rc3 := rc3 }, normal := xin, led := fpMul f (g98 f) rc3 }

/-- An enhanced topology: RC pre-stage, then two biquads (R264, R265). -/
def filterEnhanced (f : FpFormat) (k : EnhancedCoefs) (r : FilterRec) (xin : Fp) : FilterStep :=
  let rc1 := lowpass f k.ap xin r.rc1
  let u := biquadOut f r.bq0 k.bq0 rc1
  let led := biquadOut f r.bq1 k.bq1 u
  { record := { r with rc1 := rc1, bq0 := biquadPush r.bq0 rc1 u, bq1 := biquadPush r.bq1 u led }
    normal := rc1
    led := led }

/-- The conversion of R268: NaN to 0, saturation, truncation toward zero. A finite value is at least 32767 (at most
-32768) exactly when its truncation is. -/
def toOutput (o : Fp) : Int :=
  match o with
  | .nan => 0
  | .inf neg => if neg then -32768 else 32767
  | .fin neg m e => sat16 (fpTrunc (.fin neg m e))

/-- The LED selection and the conversion (R266, R268). -/
def selectOutput (ledOn : Bool) (st : FilterStep) : Int := toOutput (if ledOn then st.led else st.normal)

/-- A record after one sample, and the 16-bit output. -/
structure Filtered where
  record : FilterRec
  out : Int
deriving DecidableEq, Repr

/-- `filter(F, x)` (R261 to R269). -/
def filterSample (cfg : Cfg) (ledOn : Bool) (r : FilterRec) (x : Int) : Filtered :=
  match cfg.filter with
  | .off => { record := r, out := sat16 x }
  | .a500 =>
    { record := (filterA500 cfg.fp cfg.coefs r (fpOfInt cfg.fp x)).record
      out := selectOutput ledOn (filterA500 cfg.fp cfg.coefs r (fpOfInt cfg.fp x)) }
  | .a1200 =>
    { record := (filterA1200 cfg.fp cfg.coefs r (fpOfInt cfg.fp x)).record
      out := selectOutput ledOn (filterA1200 cfg.fp cfg.coefs r (fpOfInt cfg.fp x)) }
  | .a500e =>
    { record := (filterEnhanced cfg.fp cfg.coefs.a500e r (fpOfInt cfg.fp x)).record
      out := selectOutput ledOn (filterEnhanced cfg.fp cfg.coefs.a500e r (fpOfInt cfg.fp x)) }
  | .a1200e =>
    { record := (filterEnhanced cfg.fp cfg.coefs.a1200e r (fpOfInt cfg.fp x)).record
      out := selectOutput ledOn (filterEnhanced cfg.fp cfg.coefs.a1200e r (fpOfInt cfg.fp x)) }

end Sys2Proof.Machine
end

