-- ==== Sys2Proof/Machine/Interp.lean ====
section
/-! DEFINITION. The five interpolators and the stereo mix (spec/43_interpolators.md R230 to R239). -/

namespace Sys2Proof.Machine

/-- `s · vol` (R230). -/
def curVol (k : Channel) : Int := sext8 k.currentSample * k.vol.toNat

/-- `p · vol` with `p = last_sample[0]` (R230). -/
def prevVol (k : Channel) : Int := sext8 k.lastSample0 * k.vol.toNat

/-- `masked(x)`: the 32-bit AND of the two's-complement value with the mask (R230). -/
def masked (m : BitVec 32) (x : Int) : Int := (BitVec.ofInt 32 x &&& m).toInt

/-- NEAREST (R232). -/
def nearest (k : Channel) : Int := curVol k

/-- The 8-bit position of LINEAR: `((ev mod per) · 256) div per` (R233). -/
def linearPos (k : Channel) : Int := ((k.evtime.toNat % k.per.toNat * 256 / k.per.toNat : Nat) : Int)

/-- LINEAR (R233); `>> 8` is the floor of the division by 256. -/
def linear (k : Channel) : Int := (prevVol k * (256 - linearPos k) + curVol k * linearPos k) / 256

/-- The 12-bit ratio of CRUX (R234), with `r1 = per - ev` and `I = 3·S`. -/
def cruxRatio (k : Channel) (sev : Nat) : Int :=
  let r1 : Int := (k.per.toNat : Int) - k.evtime.toNat
  if k.evtime.toNat < sev ∨ (3 * sev : Nat) ≤ r1 then 4096
  else if r1 ≤ 0 then 0
  else Int.tdiv (r1 * 4096) (3 * sev : Nat)

/-- CRUX (R234); `>> 12` is the floor of the division by 4096. -/
def crux (k : Channel) (sev : Nat) : Int :=
  (curVol k * cruxRatio k sev + prevVol k * (4096 - cruxRatio k sev)) / 4096

/-- The fractional position of CSPLINE: `fp64(ev mod per) / fp64(per)` (R235). -/
def splinePos (k : Channel) : Fp :=
  fpDiv .binary64 (fpOfInt .binary64 (k.evtime.toNat % k.per.toNat : Nat)) (fpOfInt .binary64 (k.per.toNat : Nat))

/-- binary64 addition (R236). -/
def add64 (a b : Fp) : Fp := fpAdd .binary64 a b

/-- binary64 subtraction (R236). -/
def sub64 (a b : Fp) : Fp := fpSub .binary64 a b

/-- binary64 multiplication (R236). -/
def mul64 (a b : Fp) : Fp := fpMul .binary64 a b

/-- A binary64 constant `num/den` (R236). -/
def const64 (neg : Bool) (num den : Nat) : Fp := fpOfRatio .binary64 neg num den

/-- The coefficient of `x` in R236: `−0.5·C + 0.5·L1`. -/
def splineB1 (c l1 : Fp) : Fp := add64 (mul64 (const64 true 1 2) c) (mul64 (const64 false 1 2) l1)

/-- The coefficient of `x·x` in R236: `C − 2.5·L0 + 2·L1 − 0.5·L2`. -/
def splineB2 (c l0 l1 l2 : Fp) : Fp :=
  sub64 (add64 (sub64 c (mul64 (const64 false 5 2) l0)) (mul64 (const64 false 2 1) l1)) (mul64 (const64 false 1 2) l2)

/-- The coefficient of `x·x·x` in R236: `−0.5·C + 1.5·L0 − 1.5·L1 + 0.5·L2`. -/
def splineB3 (c l0 l1 l2 : Fp) : Fp :=
  add64
    (sub64 (add64 (mul64 (const64 true 1 2) c) (mul64 (const64 false 3 2) l0)) (mul64 (const64 false 3 2) l1))
    (mul64 (const64 false 1 2) l2)

/-- `out` of R236, evaluated left to right as written: `x·x·b` is `(x·x)·b` (log 17). -/
def splineOut (x c l0 l1 l2 : Fp) : Fp :=
  add64
    (add64 (add64 l0 (mul64 x (splineB1 c l1))) (mul64 (mul64 x x) (splineB2 c l0 l1 l2)))
    (mul64 (mul64 (mul64 x x) x) (splineB3 c l0 l1 l2))

/-- `fp64(sample · vol)` (R236). -/
def scaled64 (k : Channel) (b : Byte) : Fp := fpOfInt .binary64 (sext8 b * k.vol.toNat)

/-- CSPLINE (R236), with no smoothing stage (R237). -/
def cspline (k : Channel) : Int :=
  fpTrunc
    (splineOut (splinePos k) (scaled64 k k.currentSample) (scaled64 k k.lastSample0) (scaled64 k k.lastSample1)
      (scaled64 k k.lastSample2))

/-- The cycles of the last sample interval that still held the previous sample: `clamp(S − (per − ev), 0, S)` (R238). -/
def antiSpan (k : Channel) (sev : Nat) : Int :=
  min (max ((sev : Int) - ((k.per.toNat : Int) - k.evtime.toNat)) 0) sev

/-- ANTI (R238); `div` truncates toward zero. -/
def anti (k : Channel) (sev : Nat) : Int :=
  Int.tdiv (prevVol k * antiSpan k sev + curVol k * ((sev : Int) - antiSpan k sev)) sev

/-- `interp(c)`: the selected strategy's value, masked (R230, R231). -/
def interpolate (i : Interp) (sev : Nat) (k : Channel) : Int :=
  match i with
  | .nearest => masked k.adkMask (nearest k)
  | .linear => masked k.adkMask (linear k)
  | .crux => masked k.adkMask (crux k sev)
  | .cspline => masked k.adkMask (cspline k)
  | .anti => masked k.adkMask (anti k sev)

/-- The four values `v[c]` of a sample event, for every channel, idle or not (R203, R230). -/
def voices (s : State) : Quad Int := s.ch.map (interpolate s.cfg.interp s.sampleEvtime.toNat)

/-- The left sum of `mix(v)`: `v[0] + v[3]` (R239). -/
def mixLeft (v : Quad Int) : Int := v.q0 + v.q3

/-- The right sum of `mix(v)`: `v[1] + v[2]` (R239). -/
def mixRight (v : Quad Int) : Int := v.q1 + v.q2

end Sys2Proof.Machine
end

