-- ==== Sys2Proof/Machine/Output.lean ====
section
/-! DEFINITION. The PCM output buffer: frames, the flush and Emit (spec/45_output_buffer.md R280 to R284). -/

namespace Sys2Proof.Machine

/-- `B.fill` (R50): how many bytes of `B.buf` are filled. -/
def PcmBuffer.fill (b : PcmBuffer) : Nat := b.buf.length

/-- A 16-bit sample as two bytes, big-endian (R280). -/
def sampleBytes (v : Int) : List Byte :=
  [(BitVec.ofInt 16 v).extractLsb' 8 8, (BitVec.ofInt 16 v).extractLsb' 0 8]

/-- The mono value `(oL + oR) div 2`, truncated toward zero (R280). -/
def monoMix (oL oR : Int) : Int := Int.tdiv (oL + oR) 2

/-- The bytes of a frame (R280). -/
def frame (stereo : Bool) (oL oR : Int) : List Byte :=
  if stereo then sampleBytes oL ++ sampleBytes oR else sampleBytes (monoMix oL oR)

/-- `min(cfg.BUF_BYTES, B.req)`, the size of the next Emit (R282). -/
def chunk (s : State) : Nat := min s.cfg.bufBytes s.pcm.req

/-- `flush_check()` (R282), with `Emit` (R284). -/
def flushCheck (s : State) : State :=
  if chunk s ≤ s.pcm.fill then
    send (.emit s.pcm.buf)
      { s with
        pcm :=
          { buf := []
            req := s.pcm.req - s.pcm.fill
            waitingRead := if s.pcm.req - s.pcm.fill = 0 then true else s.pcm.waitingRead } }
  else s

/-- `append_frame(oL, oR)` (R281). -/
def appendFrame (oL oR : Int) (s : State) : State :=
  flushCheck { s with pcm := { s.pcm with buf := s.pcm.buf ++ frame s.cfg.stereo oL oR } }

end Sys2Proof.Machine
end

