-- ==== Sys2Proof/Machine/Scheduler.lean ====
section
/-! DEFINITION. The event scheduler's iteration and the sample event (spec/42_scheduler.md R201, R203, R204), and the loop
of the catch-up (R200). -/

namespace Sys2Proof.Machine

/-- An active channel's `evtime` lowers the minimum (R201). -/
def bid (k : Channel) (best : Nat) : Nat :=
  if k.active = true ∧ k.evtime.toNat < best then k.evtime.toNat else best

/-- `best`: the nearest event, or what is left of the budget (R201). -/
def best (s : State) : Nat :=
  bid s.ch.q3
    (bid s.ch.q2
      (bid s.ch.q1
        (bid s.ch.q0
          (if s.nextSampleEvtime.toNat < s.pendingCycles.toNat then s.nextSampleEvtime.toNat
           else s.pendingCycles.toNat))))

/-- An active channel's countdown moved on by `n` cycles; an idle channel's stays (R201). -/
def elapseChannel (n : Nat) (k : Channel) : Channel :=
  if k.active then { k with evtime := BitVec.ofNat 32 (k.evtime.toNat - n) } else k

/-- Every countdown moved on by `n` cycles (R201). -/
def elapse (n : Nat) (s : State) : State :=
  { s with
    pendingCycles := BitVec.ofNat 64 (s.pendingCycles.toNat - n)
    nextSampleEvtime := BitVec.ofNat 28 (s.nextSampleEvtime.toNat - n)
    ch := s.ch.map (elapseChannel n) }

/-- The output stage of the sample event: interpolate, mix, filter each side on its own record, append the frame (R203,
R267). -/
def produceFrame (s : State) : State :=
  let l := filterSample s.cfg s.led s.filterL (mixLeft (voices s))
  let r := filterSample s.cfg s.led s.filterR (mixRight (voices s))
  appendFrame l.out r.out { s with filterL := l.record, filterR := r.record }

/-- `sample_event()` (R203). -/
def sampleEvent (s : State) : State :=
  if producing s then produceFrame { s with nextSampleEvtime := s.sampleEvtime }
  else { s with nextSampleEvtime := s.sampleEvtime }

/-- A channel's event, if it is active and its countdown is 0 (R201, R204). -/
def dispatchChannel (c : ChanIdx) (s : State) : State :=
  if (s.chan c).active = true ∧ (s.chan c).evtime = 0 then advanceChannel c s else s

/-- The channel events in index order (R204). -/
def dispatchAll (s : State) : State :=
  dispatchChannel 3 (dispatchChannel 2 (dispatchChannel 1 (dispatchChannel 0 s)))

/-- The sample event, if its countdown is 0 (R201). -/
def dispatchSample (s : State) : State := if s.nextSampleEvtime = 0 then sampleEvent s else s

/-- One scheduler iteration (R201): the sample event before the channel events (R204). -/
def iteration (s : State) : State := dispatchAll (dispatchSample (elapse (best s) s))

/-- The `while` loop of the catch-up (R200), at most `n` iterations: it ends when no cycles are left or at the stall. -/
def drain (n : Nat) (s : State) : State :=
  match n with
  | 0 => s
  | n + 1 => if s.pendingCycles = 0 then s else if stalled s then s else drain n (iteration s)

/-- As many iterations as a catch-up can need: each consumes a cycle at least, and one more for a state whose countdowns
start at 0, which no run reaches (R205; log 9). -/
def drainBound (s : State) : Nat := s.pendingCycles.toNat + 1

end Sys2Proof.Machine
end

