-- ==== Sys2Proof/Machine/Timing.lean ====
section
/-! DEFINITION. The effects of the timing and LED commands (spec/42_scheduler.md R210 to R214, spec/44_filter.md R270). -/

namespace Sys2Proof.Machine

/-- SYNC: the effect is empty, only the catch-up runs (R210). -/
def effectSync (s : State) : State := s

/-- LINE_SYNC: the line service of every channel, in index order (R212). -/
def effectLineSync (s : State) : State := lineService 3 (lineService 2 (lineService 1 (lineService 0 s)))

/-- SET_LED: `G.led <- W[0]` (R270). -/
def effectSetled (led : Bool) (s : State) : State := { s with led := led }

/-- SET_MAXHPOS: `G.maxhpos <- value`; stored periods and countdowns stay (R213). -/
def effectSetmaxhpos (value : BitVec 16) (s : State) : State := { s with maxhpos := value }

/-- SET_SAMPLE_EVTIME: `G.sample_evtime <- value`; the countdown under way stays (R214). -/
def effectSetsevt (value : BitVec 28) (s : State) : State := { s with sampleEvtime := value }

end Sys2Proof.Machine
end

