-- ==== Sys2Proof/Machine/CatchUp.lean ====
section
/-! DEFINITION. The catch-up that every register-port command runs before its effect (spec/42_scheduler.md R200,
spec/40_register_writes.md R120), the checks before it (spec/60_exceptions.md R301), and its resumption. -/

namespace Sys2Proof.Machine

/-- The effect of a register-port command once its catch-up is done (R120 step 3). The control-port commands READ and
RESET are never held (R42) and have none. -/
def effect (i : Instr) (s : State) : State :=
  match i with
  | .aud0lch data => effectAud0Lch data s
  | .aud0lcl data => effectAud0Lcl data s
  | .aud0len data => effectAud0Len data s
  | .aud0per data => effectAud0Per data s
  | .aud0vol data => effectAud0Vol data s
  | .aud0dat data => effectAud0Dat data s
  | .aud1lch data => effectAud1Lch data s
  | .aud1lcl data => effectAud1Lcl data s
  | .aud1len data => effectAud1Len data s
  | .aud1per data => effectAud1Per data s
  | .aud1vol data => effectAud1Vol data s
  | .aud1dat data => effectAud1Dat data s
  | .aud2lch data => effectAud2Lch data s
  | .aud2lcl data => effectAud2Lcl data s
  | .aud2len data => effectAud2Len data s
  | .aud2per data => effectAud2Per data s
  | .aud2vol data => effectAud2Vol data s
  | .aud2dat data => effectAud2Dat data s
  | .aud3lch data => effectAud3Lch data s
  | .aud3lcl data => effectAud3Lcl data s
  | .aud3len data => effectAud3Len data s
  | .aud3per data => effectAud3Per data s
  | .aud3vol data => effectAud3Vol data s
  | .aud3dat data => effectAud3Dat data s
  | .dmacon data => effectDmacon data s
  | .intreq data => effectIntreq data s
  | .adkcon data => effectAdkcon data s
  | .dmaconr => effectDmaconr s
  | .adkconr => effectAdkconr s
  | .intreqr => effectIntreqr s
  | .sync => effectSync s
  | .lineSync => effectLineSync s
  | .setled led => effectSetled led s
  | .setmaxhpos value => effectSetmaxhpos value s
  | .setsevt value => effectSetsevt value s
  | .read _ => s
  | .reset => s

/-- `G.held <- empty; apply the effect of cmd` (R200). -/
def completeHeld (s : State) : State :=
  match s.held with
  | none => s
  | some cmd => effect cmd { s with held := none }

/-- What a catch-up's loop leaves: the command completed, or held at the stall (R200, R283). A scheduler that cannot
progress stops the machine (log 9). -/
def settleDrained (s : State) : Host.Outcome State Fault Refusal :=
  if s.pendingCycles = 0 then .next (completeHeld s)
  else if stalled s then .next s
  else .fault .noProgress

/-- The catch-up's loop and what follows it, for a new command and for a resumed one (R200, R285). -/
def settle (s : State) : Host.Outcome State Fault Refusal := settleDrained (drain (drainBound s) s)

/-- The catch-up's opening: the elapsed cycles are added, the clock is set to `now`, the command is held (R200). -/
def arm (cmd : Instr) (s : State) : State :=
  { s with
    pendingCycles := s.pendingCycles + (s.now - s.lastCycles)
    lastCycles := s.now
    held := some cmd }

/-- The state a register-port command's effect is applied to: its catch-up run, the command no longer held (R200). -/
def caughtUp (cmd : Instr) (s : State) : State :=
  { drain (drainBound (arm cmd s)) (arm cmd s) with held := none }

/-- A register-port command after it decodes (R120): ignored by a faulted block (R300), not taken while the port is not
ready (R283), then the value check, then the time check (R301), then the catch-up and the effect (R200). -/
def registerCommand (cmd : Instr) (valueOk : Bool) (s : State) : Host.Outcome State Fault Refusal :=
  if deaf s then .next s
  else if s.held.isSome then .next s
  else if !valueOk then .next (takeFault .configError s)
  else if s.now < s.lastCycles then .next (takeFault .timeReversal s)
  else settle (arm cmd s)

end Sys2Proof.Machine
end

