-- ==== Sys2Proof/Machine/ControlPort.lean ====
section
/-! DEFINITION. The meanings of the control-port commands: READ (spec/45_output_buffer.md R285) and RESET
(spec/70_reset_and_hazards.md R330). -/

namespace Sys2Proof.Machine

/-- A READ's request taken: `B.req <- n; B.waiting_read <- 0` (R285). -/
def acceptRead (n : Nat) (s : State) : State := { s with pcm := { s.pcm with req := n, waitingRead := false } }

/-- The held catch-up resumed, if there is one (R285). -/
def resume (s : State) : Host.Outcome State Fault Refusal := if s.held.isSome then settle s else .next s

/-- READ (R285): ignored by a faulted block (R300); a request still outstanding is a ProtocolViolation; a count below one
frame leaves the block waiting. -/
def execRead (nbytes : Word) (s : State) : Host.Outcome State Fault Refusal :=
  if deaf s then .next s
  else if !s.pcm.waitingRead then .next (takeFault .protocolViolation s)
  else if readCount s.cfg.stereo nbytes = 0 then .next s
  else resume (acceptRead (readCount s.cfg.stereo nbytes) s)

/-- RESET (R330), accepted in every state: an invalid configuration is a ConfigError and changes nothing else. -/
def execReset (s : State) : Host.Outcome State Fault Refusal :=
  match loadCfg s.cfgIn with
  | none => .next (takeFault .configError s)
  | some cfg => .next (afterReset s.now cfg s)

end Sys2Proof.Machine
end

