-- ==== Sys2Proof/Machine/RegisterPort.lean ====
section
/-! DEFINITION. The meanings of the register-port commands (spec/40_register_writes.md, spec/42_scheduler.md,
spec/44_filter.md R270): each is the shared register command (R120) over its own effect. -/

namespace Sys2Proof.Machine

/-- AUD0LCH (R125). -/
def execAud0Lch (data : Word) (s : State) : Host.Outcome State Fault Refusal :=
  registerCommand (.aud0lch data) true s

/-- AUD0LCL (R126). -/
def execAud0Lcl (data : Word) (s : State) : Host.Outcome State Fault Refusal :=
  registerCommand (.aud0lcl data) true s

/-- AUD0LEN (R124). -/
def execAud0Len (data : Word) (s : State) : Host.Outcome State Fault Refusal :=
  registerCommand (.aud0len data) true s

/-- AUD0PER (R122). -/
def execAud0Per (data : Word) (s : State) : Host.Outcome State Fault Refusal :=
  registerCommand (.aud0per data) true s

/-- AUD0VOL (R123). -/
def execAud0Vol (data : Word) (s : State) : Host.Outcome State Fault Refusal :=
  registerCommand (.aud0vol data) true s

/-- AUD0DAT (R127). -/
def execAud0Dat (data : Word) (s : State) : Host.Outcome State Fault Refusal :=
  registerCommand (.aud0dat data) true s

/-- AUD1LCH (R125). -/
def execAud1Lch (data : Word) (s : State) : Host.Outcome State Fault Refusal :=
  registerCommand (.aud1lch data) true s

/-- AUD1LCL (R126). -/
def execAud1Lcl (data : Word) (s : State) : Host.Outcome State Fault Refusal :=
  registerCommand (.aud1lcl data) true s

/-- AUD1LEN (R124). -/
def execAud1Len (data : Word) (s : State) : Host.Outcome State Fault Refusal :=
  registerCommand (.aud1len data) true s

/-- AUD1PER (R122). -/
def execAud1Per (data : Word) (s : State) : Host.Outcome State Fault Refusal :=
  registerCommand (.aud1per data) true s

/-- AUD1VOL (R123). -/
def execAud1Vol (data : Word) (s : State) : Host.Outcome State Fault Refusal :=
  registerCommand (.aud1vol data) true s

/-- AUD1DAT (R127). -/
def execAud1Dat (data : Word) (s : State) : Host.Outcome State Fault Refusal :=
  registerCommand (.aud1dat data) true s

/-- AUD2LCH (R125). -/
def execAud2Lch (data : Word) (s : State) : Host.Outcome State Fault Refusal :=
  registerCommand (.aud2lch data) true s

/-- AUD2LCL (R126). -/
def execAud2Lcl (data : Word) (s : State) : Host.Outcome State Fault Refusal :=
  registerCommand (.aud2lcl data) true s

/-- AUD2LEN (R124). -/
def execAud2Len (data : Word) (s : State) : Host.Outcome State Fault Refusal :=
  registerCommand (.aud2len data) true s

/-- AUD2PER (R122). -/
def execAud2Per (data : Word) (s : State) : Host.Outcome State Fault Refusal :=
  registerCommand (.aud2per data) true s

/-- AUD2VOL (R123). -/
def execAud2Vol (data : Word) (s : State) : Host.Outcome State Fault Refusal :=
  registerCommand (.aud2vol data) true s

/-- AUD2DAT (R127). -/
def execAud2Dat (data : Word) (s : State) : Host.Outcome State Fault Refusal :=
  registerCommand (.aud2dat data) true s

/-- AUD3LCH (R125). -/
def execAud3Lch (data : Word) (s : State) : Host.Outcome State Fault Refusal :=
  registerCommand (.aud3lch data) true s

/-- AUD3LCL (R126). -/
def execAud3Lcl (data : Word) (s : State) : Host.Outcome State Fault Refusal :=
  registerCommand (.aud3lcl data) true s

/-- AUD3LEN (R124). -/
def execAud3Len (data : Word) (s : State) : Host.Outcome State Fault Refusal :=
  registerCommand (.aud3len data) true s

/-- AUD3PER (R122). -/
def execAud3Per (data : Word) (s : State) : Host.Outcome State Fault Refusal :=
  registerCommand (.aud3per data) true s

/-- AUD3VOL (R123). -/
def execAud3Vol (data : Word) (s : State) : Host.Outcome State Fault Refusal :=
  registerCommand (.aud3vol data) true s

/-- AUD3DAT (R127). -/
def execAud3Dat (data : Word) (s : State) : Host.Outcome State Fault Refusal :=
  registerCommand (.aud3dat data) true s

/-- DMACON (R129). -/
def execDmacon (data : Word) (s : State) : Host.Outcome State Fault Refusal :=
  registerCommand (.dmacon data) true s

/-- INTREQ (R130). -/
def execIntreq (data : Word) (s : State) : Host.Outcome State Fault Refusal :=
  registerCommand (.intreq data) true s

/-- ADKCON (R128). -/
def execAdkcon (data : Word) (s : State) : Host.Outcome State Fault Refusal :=
  registerCommand (.adkcon data) true s

/-- DMACONR (R131). -/
def execDmaconr (s : State) : Host.Outcome State Fault Refusal :=
  registerCommand .dmaconr true s

/-- ADKCONR (R131). -/
def execAdkconr (s : State) : Host.Outcome State Fault Refusal :=
  registerCommand .adkconr true s

/-- INTREQR (R131). -/
def execIntreqr (s : State) : Host.Outcome State Fault Refusal :=
  registerCommand .intreqr true s

/-- SYNC (R210). -/
def execSync (s : State) : Host.Outcome State Fault Refusal :=
  registerCommand .sync true s

/-- LINE_SYNC (R212). -/
def execLineSync (s : State) : Host.Outcome State Fault Refusal :=
  registerCommand .lineSync true s

/-- SETLED (R270). -/
def execSetled (led : Bool) (s : State) : Host.Outcome State Fault Refusal :=
  registerCommand (.setled led) true s

/-- SETMAXHPOS (R213; the value 0 is refused, R96). -/
def execSetmaxhpos (value : BitVec 16) (s : State) : Host.Outcome State Fault Refusal :=
  registerCommand (.setmaxhpos value) (value != 0) s

/-- SETSEVT (R214; the value 0 is refused, R96). -/
def execSetsevt (value : BitVec 28) (s : State) : Host.Outcome State Fault Refusal :=
  registerCommand (.setsevt value) (value != 0) s

end Sys2Proof.Machine
end

