-- ==== Sys2Proof/Machine/Dispatch.lean ====
section
/-! DEFINITION. One arm per constructor of Instr, each one direct call of that instruction's meaning. -/

namespace Sys2Proof.Machine

def exec (i : Instr) (s : State) : Host.Outcome State Fault Refusal :=
  match i with
  | .aud0lch data => Sys2Proof.Machine.execAud0Lch data s
  | .aud0lcl data => Sys2Proof.Machine.execAud0Lcl data s
  | .aud0len data => Sys2Proof.Machine.execAud0Len data s
  | .aud0per data => Sys2Proof.Machine.execAud0Per data s
  | .aud0vol data => Sys2Proof.Machine.execAud0Vol data s
  | .aud0dat data => Sys2Proof.Machine.execAud0Dat data s
  | .aud1lch data => Sys2Proof.Machine.execAud1Lch data s
  | .aud1lcl data => Sys2Proof.Machine.execAud1Lcl data s
  | .aud1len data => Sys2Proof.Machine.execAud1Len data s
  | .aud1per data => Sys2Proof.Machine.execAud1Per data s
  | .aud1vol data => Sys2Proof.Machine.execAud1Vol data s
  | .aud1dat data => Sys2Proof.Machine.execAud1Dat data s
  | .aud2lch data => Sys2Proof.Machine.execAud2Lch data s
  | .aud2lcl data => Sys2Proof.Machine.execAud2Lcl data s
  | .aud2len data => Sys2Proof.Machine.execAud2Len data s
  | .aud2per data => Sys2Proof.Machine.execAud2Per data s
  | .aud2vol data => Sys2Proof.Machine.execAud2Vol data s
  | .aud2dat data => Sys2Proof.Machine.execAud2Dat data s
  | .aud3lch data => Sys2Proof.Machine.execAud3Lch data s
  | .aud3lcl data => Sys2Proof.Machine.execAud3Lcl data s
  | .aud3len data => Sys2Proof.Machine.execAud3Len data s
  | .aud3per data => Sys2Proof.Machine.execAud3Per data s
  | .aud3vol data => Sys2Proof.Machine.execAud3Vol data s
  | .aud3dat data => Sys2Proof.Machine.execAud3Dat data s
  | .dmacon data => Sys2Proof.Machine.execDmacon data s
  | .intreq data => Sys2Proof.Machine.execIntreq data s
  | .adkcon data => Sys2Proof.Machine.execAdkcon data s
  | .dmaconr => Sys2Proof.Machine.execDmaconr s
  | .adkconr => Sys2Proof.Machine.execAdkconr s
  | .intreqr => Sys2Proof.Machine.execIntreqr s
  | .sync => Sys2Proof.Machine.execSync s
  | .lineSync => Sys2Proof.Machine.execLineSync s
  | .setled led => Sys2Proof.Machine.execSetled led s
  | .setmaxhpos value => Sys2Proof.Machine.execSetmaxhpos value s
  | .setsevt value => Sys2Proof.Machine.execSetsevt value s
  | .read nbytes => Sys2Proof.Machine.execRead nbytes s
  | .reset => Sys2Proof.Machine.execReset s

end Sys2Proof.Machine
end

