-- ==== Sys2Proof/WellFormed.lean ====
section
/-! DEFINITION. Well-formed commands: every operand inside the domain spec/30_encoding.md R92 gives its field. The widths
are in the types; what is left are the two values R92 excludes and R96 answers with ConfigError. -/

namespace Sys2Proof

/-- A command whose operand lies in the domain of R92: SET_MAXHPOS 1..65535, SET_SAMPLE_EVTIME 1..2^28-1, every other
operand any value of its width. -/
def Instr.wellFormed (i : Instr) : Bool :=
  match i with
  | .aud0lch _ => true
  | .aud0lcl _ => true
  | .aud0len _ => true
  | .aud0per _ => true
  | .aud0vol _ => true
  | .aud0dat _ => true
  | .aud1lch _ => true
  | .aud1lcl _ => true
  | .aud1len _ => true
  | .aud1per _ => true
  | .aud1vol _ => true
  | .aud1dat _ => true
  | .aud2lch _ => true
  | .aud2lcl _ => true
  | .aud2len _ => true
  | .aud2per _ => true
  | .aud2vol _ => true
  | .aud2dat _ => true
  | .aud3lch _ => true
  | .aud3lcl _ => true
  | .aud3len _ => true
  | .aud3per _ => true
  | .aud3vol _ => true
  | .aud3dat _ => true
  | .dmacon _ => true
  | .intreq _ => true
  | .adkcon _ => true
  | .dmaconr => true
  | .adkconr => true
  | .intreqr => true
  | .sync => true
  | .lineSync => true
  | .setled _ => true
  | .setmaxhpos value => value != 0
  | .setsevt value => value != 0
  | .read _ => true
  | .reset => true

end Sys2Proof
end

