-- ==== Sys2Proof/Decode.lean ====
section
/-! DEFINITION. The decoder of spec/30_encoding.md R92 to R97, total on every command word and every port, with a name for
each way R95 rejects one; and after it the encoder, written from the same tables. -/

namespace Sys2Proof

/-- Why a word is an illegal command (R95). -/
inductive Reject where
  /-- classes 0x7 and 0xA to 0xF -/
  | reservedClass
  /-- a non-zero bit in a field that R92 marks 0 -/
  | reservedBits
  /-- a REGW or REGR offset that is not in R93 -/
  | unknownOffset
  /-- a REGW to an offset that is REGR only -/
  | readOnlyOffset
  /-- a REGR of an offset that is REGW only -/
  | writeOnlyOffset
  /-- a register-port class on the control port, or the other way round -/
  | wrongPort
deriving DecidableEq, Repr

/-- What the decoder answers. -/
inductive Decoded where
  | instr (i : Instr)
  | rejected (why : Reject)
deriving DecidableEq, Repr

/-- The port a command belongs to (R90, R92). -/
def Instr.port (i : Instr) : Port :=
  match i with
  | .aud0lch _ => .register
  | .aud0lcl _ => .register
  | .aud0len _ => .register
  | .aud0per _ => .register
  | .aud0vol _ => .register
  | .aud0dat _ => .register
  | .aud1lch _ => .register
  | .aud1lcl _ => .register
  | .aud1len _ => .register
  | .aud1per _ => .register
  | .aud1vol _ => .register
  | .aud1dat _ => .register
  | .aud2lch _ => .register
  | .aud2lcl _ => .register
  | .aud2len _ => .register
  | .aud2per _ => .register
  | .aud2vol _ => .register
  | .aud2dat _ => .register
  | .aud3lch _ => .register
  | .aud3lcl _ => .register
  | .aud3len _ => .register
  | .aud3per _ => .register
  | .aud3vol _ => .register
  | .aud3dat _ => .register
  | .dmacon _ => .register
  | .intreq _ => .register
  | .adkcon _ => .register
  | .dmaconr => .register
  | .adkconr => .register
  | .intreqr => .register
  | .sync => .register
  | .lineSync => .register
  | .setled _ => .register
  | .setmaxhpos _ => .register
  | .setsevt _ => .register
  | .read _ => .control
  | .reset => .control

/-- The class field `W[31:28]` (R92). -/
def classField (w : CmdWord) : BitVec 4 := w.extractLsb' 28 4

/-- The bits `W[27:25]` (R92). -/
def highBits (w : CmdWord) : BitVec 3 := w.extractLsb' 25 3

/-- The register offset `W[24:16]` (R92). -/
def offField (w : CmdWord) : BitVec 9 := w.extractLsb' 16 9

/-- The data field `W[15:0]` (R92). -/
def dataField (w : CmdWord) : Word := w.extractLsb' 0 16

/-- The 28-bit value field of SET_SAMPLE_EVTIME (R92). -/
def valueField (w : CmdWord) : BitVec 28 := w.extractLsb' 0 28

/-- AUDcLCH of channel c (R93). -/
def audLch (c : ChanIdx) (data : Word) : Instr :=
  match c with
  | 0 => .aud0lch data
  | 1 => .aud1lch data
  | 2 => .aud2lch data
  | 3 => .aud3lch data

/-- AUDcLCL of channel c (R93). -/
def audLcl (c : ChanIdx) (data : Word) : Instr :=
  match c with
  | 0 => .aud0lcl data
  | 1 => .aud1lcl data
  | 2 => .aud2lcl data
  | 3 => .aud3lcl data

/-- AUDcLEN of channel c (R93). -/
def audLen (c : ChanIdx) (data : Word) : Instr :=
  match c with
  | 0 => .aud0len data
  | 1 => .aud1len data
  | 2 => .aud2len data
  | 3 => .aud3len data

/-- AUDcPER of channel c (R93). -/
def audPer (c : ChanIdx) (data : Word) : Instr :=
  match c with
  | 0 => .aud0per data
  | 1 => .aud1per data
  | 2 => .aud2per data
  | 3 => .aud3per data

/-- AUDcVOL of channel c (R93). -/
def audVol (c : ChanIdx) (data : Word) : Instr :=
  match c with
  | 0 => .aud0vol data
  | 1 => .aud1vol data
  | 2 => .aud2vol data
  | 3 => .aud3vol data

/-- AUDcDAT of channel c (R93). -/
def audDat (c : ChanIdx) (data : Word) : Instr :=
  match c with
  | 0 => .aud0dat data
  | 1 => .aud1dat data
  | 2 => .aud2dat data
  | 3 => .aud3dat data

/-- The channel register that `off[3:0]` selects (R94); 0xC and 0xE, and every odd offset, are unassigned. -/
def decodeChannelReg (c : ChanIdx) (sel : BitVec 4) (data : Word) : Decoded :=
  if sel = 0x0#4 then .instr (audLch c data)
  else if sel = 0x2#4 then .instr (audLcl c data)
  else if sel = 0x4#4 then .instr (audLen c data)
  else if sel = 0x6#4 then .instr (audPer c data)
  else if sel = 0x8#4 then .instr (audVol c data)
  else if sel = 0xA#4 then .instr (audDat c data)
  else .rejected .unknownOffset

/-- The offset is that of a register R93 lets REGR read. -/
def readableOffset (off : BitVec 9) : Bool := off == 0x002#9 || off == 0x010#9 || off == 0x01E#9

/-- A REGW command: offset map of R93, channel offsets 0x0A0 to 0x0DF by `c = off[7:4] - 0xA` (R94). -/
def decodeRegw (off : BitVec 9) (data : Word) : Decoded :=
  if off = 0x096#9 then .instr (.dmacon data)
  else if off = 0x09C#9 then .instr (.intreq data)
  else if off = 0x09E#9 then .instr (.adkcon data)
  else if readableOffset off then .rejected .readOnlyOffset
  else if off.extractLsb' 4 5 = 0x0A#5 then decodeChannelReg 0 (off.extractLsb' 0 4) data
  else if off.extractLsb' 4 5 = 0x0B#5 then decodeChannelReg 1 (off.extractLsb' 0 4) data
  else if off.extractLsb' 4 5 = 0x0C#5 then decodeChannelReg 2 (off.extractLsb' 0 4) data
  else if off.extractLsb' 4 5 = 0x0D#5 then decodeChannelReg 3 (off.extractLsb' 0 4) data
  else .rejected .unknownOffset

/-- A REGR command (R93): only the three read offsets; an offset that REGW knows is write-only. -/
def decodeRegr (off : BitVec 9) : Decoded :=
  if off = 0x002#9 then .instr .dmaconr
  else if off = 0x010#9 then .instr .adkconr
  else if off = 0x01E#9 then .instr .intreqr
  else
    match decodeRegw off 0 with
    | .instr _ => .rejected .writeOnlyOffset
    | .rejected _ => .rejected .unknownOffset

/-- `d` where the bits that R92 marks 0 are 0, else the rejection of R95. -/
def whenZero (clear : Bool) (d : Decoded) : Decoded := if clear then d else .rejected .reservedBits

/-- The command a word encodes, its port left aside: the class first, then the fields (R92, R97). -/
def decodeWord (w : CmdWord) : Decoded :=
  if classField w = 0x0#4 then whenZero (highBits w == 0) (decodeRegw (offField w) (dataField w))
  else if classField w = 0x1#4 then whenZero (highBits w == 0 && dataField w == 0) (decodeRegr (offField w))
  else if classField w = 0x2#4 then whenZero (valueField w == 0) (.instr .sync)
  else if classField w = 0x3#4 then whenZero (valueField w == 0) (.instr .lineSync)
  else if classField w = 0x4#4 then whenZero (w.extractLsb' 1 27 == 0) (.instr (.setled (w.getLsbD 0)))
  else if classField w = 0x5#4 then whenZero (w.extractLsb' 16 12 == 0) (.instr (.setmaxhpos (dataField w)))
  else if classField w = 0x6#4 then .instr (.setsevt (valueField w))
  else if classField w = 0x8#4 then whenZero (w.extractLsb' 16 12 == 0) (.instr (.read (dataField w)))
  else if classField w = 0x9#4 then whenZero (valueField w == 0) (.instr .reset)
  else .rejected .reservedClass

/-- The command a word encodes on the port it arrives at (R95: a class on the other port is illegal). -/
def decodeOn (p : Port) (w : CmdWord) : Decoded :=
  match decodeWord w with
  | .instr i => if i.port = p then .instr i else .rejected .wrongPort
  | .rejected why => .rejected why

/-- The port a word's class belongs to (R92): classes with bit 31 set are the control port's. -/
def portOfWord (w : CmdWord) : Port := if w.getLsbD 31 then .control else .register

/-- The instruction the decoder reads from a table row's bits (every command is one 32-bit word, R97); none where it
refuses. Bits above `nbits` are 0. -/
def decodeTableWord (nbits w : Nat) : Option Instr :=
  match decodeOn (portOfWord (BitVec.ofNat 32 (w % 2 ^ nbits))) (BitVec.ofNat 32 (w % 2 ^ nbits)) with
  | .instr i => some i
  | .rejected _ => none

/-- A REGW word: class 0, `W[27:25]` = 0, offset, data (R92). -/
def encodeRegw (off : BitVec 9) (data : Word) : CmdWord := 0x0#4 ++ 0#3 ++ off ++ data

/-- A REGR word: class 1, `W[27:25]` = 0, offset, data 0 (R92). -/
def encodeRegr (off : BitVec 9) : CmdWord := 0x1#4 ++ 0#3 ++ off ++ 0#16

/-- The word of a command (R92, R93). -/
def encode (i : Instr) : CmdWord :=
  match i with
  | .aud0lch data => encodeRegw 0x0A0#9 data
  | .aud0lcl data => encodeRegw 0x0A2#9 data
  | .aud0len data => encodeRegw 0x0A4#9 data
  | .aud0per data => encodeRegw 0x0A6#9 data
  | .aud0vol data => encodeRegw 0x0A8#9 data
  | .aud0dat data => encodeRegw 0x0AA#9 data
  | .aud1lch data => encodeRegw 0x0B0#9 data
  | .aud1lcl data => encodeRegw 0x0B2#9 data
  | .aud1len data => encodeRegw 0x0B4#9 data
  | .aud1per data => encodeRegw 0x0B6#9 data
  | .aud1vol data => encodeRegw 0x0B8#9 data
  | .aud1dat data => encodeRegw 0x0BA#9 data
  | .aud2lch data => encodeRegw 0x0C0#9 data
  | .aud2lcl data => encodeRegw 0x0C2#9 data
  | .aud2len data => encodeRegw 0x0C4#9 data
  | .aud2per data => encodeRegw 0x0C6#9 data
  | .aud2vol data => encodeRegw 0x0C8#9 data
  | .aud2dat data => encodeRegw 0x0CA#9 data
  | .aud3lch data => encodeRegw 0x0D0#9 data
  | .aud3lcl data => encodeRegw 0x0D2#9 data
  | .aud3len data => encodeRegw 0x0D4#9 data
  | .aud3per data => encodeRegw 0x0D6#9 data
  | .aud3vol data => encodeRegw 0x0D8#9 data
  | .aud3dat data => encodeRegw 0x0DA#9 data
  | .dmacon data => encodeRegw 0x096#9 data
  | .intreq data => encodeRegw 0x09C#9 data
  | .adkcon data => encodeRegw 0x09E#9 data
  | .dmaconr => encodeRegr 0x002#9
  | .adkconr => encodeRegr 0x010#9
  | .intreqr => encodeRegr 0x01E#9
  | .sync => 0x2#4 ++ 0#28
  | .lineSync => 0x3#4 ++ 0#28
  | .setled led => 0x4#4 ++ 0#27 ++ BitVec.ofBool led
  | .setmaxhpos value => 0x5#4 ++ 0#12 ++ value
  | .setsevt value => 0x6#4 ++ value
  | .read nbytes => 0x8#4 ++ 0#12 ++ nbytes
  | .reset => 0x9#4 ++ 0#28

end Sys2Proof
end

