-- ==== Sys2Proof/Machine/Fetch.lean ====
section
/-! DEFINITION. How the block takes what its environment has issued (spec/30_encoding.md R90, R91, spec/20_memory.md R80,
spec/45_output_buffer.md R283; log 1, log 6). -/

namespace Sys2Proof.Machine

/-- What the block takes at one step. -/
inductive Fetched where
  /-- nothing it can take -/
  | idle
  /-- a host write of the external memory, done -/
  | written (s : State)
  /-- a command word on a port, its sideband latched -/
  | command (p : Port) (w : CmdWord) (s : State)
deriving DecidableEq, Repr

/-- An input of the control port, the one port open while a command is held (R283). -/
def Input.isControl (i : Input) : Bool :=
  match i with
  | .register _ _ => false
  | .control _ _ _ => true
  | .hostWrite _ _ => false

/-- The oldest control-port input and the inputs without it. -/
def takeControl (l : List Input) : Option (Input × List Input) :=
  match l with
  | [] => none
  | i :: rest =>
    if i.isControl then some (i, rest)
    else
      match takeControl rest with
      | none => none
      | some (j, others) => some (j, i :: others)

/-- The oldest input and the inputs without it. -/
def takeOldest (l : List Input) : Option (Input × List Input) :=
  match l with
  | [] => none
  | i :: rest => some (i, rest)

/-- The input the block takes next: the oldest, or the oldest of the control port while the register port is not ready
(R283). A block that has taken no RESET but holds a command (R333 leaves `G.held` unspecified there) is treated the same:
its register-port commands wait for the RESET instead of being taken and ignored, the model's choice (DESIGN CHOICE,
log 21). -/
def takeInput (s : State) : Option (Input × List Input) :=
  if s.held.isSome then takeControl s.inputs else takeOldest s.inputs

/-- An input taken off the queue: a host write is done, a command's sideband is latched. -/
def latch (i : Input) (rest : List Input) (s : State) : Fetched :=
  match i with
  | .register w now => .command .register w { s with inputs := rest, now := now }
  | .control w now cfg => .command .control w { s with inputs := rest, now := now, cfgIn := cfg }
  | .hostWrite a b => .written { s with inputs := rest, mem := Memory.write s.mem a.toNat b }

/-- What the block takes in state `s`. -/
def fetch (s : State) : Fetched :=
  match takeInput s with
  | none => .idle
  | some (i, rest) => latch i rest s

/-- An illegal command word: `fault IllegalCommand` (R95), ignored by a block that takes only a RESET (R300, R333). -/
def illegalCommand (s : State) : State := if deaf s then s else takeFault .illegalCommand s

/-- The port is ready for a command placed on it: a held command is cleared for the register port, which would not take
one (R283). -/
def clearPort (p : Port) (s : State) : State :=
  match p with
  | .register => { s with held := none, pendingCycles := 0 }
  | .control => s

/-- A command as an input of the port its class belongs to, at the block's own time, with its own last configuration. -/
def commandInput (w : CmdWord) (s : State) : Input :=
  match portOfWord w with
  | .register => .register w s.lastCycles
  | .control => .control w s.lastCycles s.cfgIn

end Sys2Proof.Machine
end

