-- ==== Sys2Proof/Machine/Step.lean ====
section
/-! DEFINITION. One step: the block takes what it can take next and, where that is a command, runs it whole, its catch-up
included (spec/20_memory.md R80). With nothing to take the block does nothing (spec/42_scheduler.md R215). -/

namespace Sys2Proof.Machine

/-- A command word on a port: decode (R92 to R95), then the instruction's meaning. -/
def runWord (p : Port) (w : CmdWord) (s : State) : Host.Outcome State Fault Refusal :=
  match decodeOn p w with
  | .instr i => exec i s
  | .rejected _ => .next (illegalCommand s)

/-- One step of the machine. -/
def step (s : State) : Host.Outcome State Fault Refusal :=
  match fetch s with
  | .idle => .next s
  | .written s' => .next s'
  | .command p w s' => runWord p w s'

/-- `s` with the command of `w`'s low `nbits` bits issued as the next thing the block takes, at the block's own time
(log 2). -/
def State.withFetchWord (s : State) (nbits w : Nat) : State :=
  let word := BitVec.ofNat 32 (w % 2 ^ nbits)
  { clearPort (portOfWord word) s with inputs := commandInput word s :: s.inputs }

end Sys2Proof.Machine
end

