-- ==== Sys2Proof/Safety.lean ====
section
/-! DEFINITION. What counts as a good state and a good run, in the terms the statements use: the invariants of
spec/10_state.md R55, what an observer sees (R56), and when a register-port command completes at once (R200). -/

namespace Sys2Proof.Machine

/-- What the rules keep of one channel record: R55 (a), (b), (c), (f), and no defect state, nor state 1 between commands
(R31, R162). -/
abbrev channelInv (k : Channel) : Prop :=
  k.per ≠ 0 ∧ k.lc.getLsbD 0 = false ∧ k.pt.getLsbD 0 = false ∧ k.vol.toNat ≤ 63 ∧
    (k.state = 0 ∨ ((k.state = 5 ∨ k.state = 2 ∨ k.state = 3) ∧ k.evtime ≠ 0))

/-- Every mask is the function of ADKCON that R45 gives. -/
abbrev masksInv (s : State) : Prop := ∀ c : ChanIdx, (s.chan c).adkMask = adkMaskOf s.adkcon c

/-- The intervals are positive: R43, R55 (d). -/
abbrev clockInv (s : State) : Prop := s.maxhpos ≠ 0 ∧ s.sampleEvtime ≠ 0 ∧ s.nextSampleEvtime ≠ 0

/-- The buffer size is one R331 accepts. -/
abbrev cfgInv (s : State) : Prop :=
  1 ≤ s.cfg.bufBytes ∧ s.cfg.bufBytes ≤ 4088 ∧ s.cfg.bufBytes % frameBytes s.cfg.stereo = 0

/-- What the rules keep of the PCM buffer: R50, R55 (e), whole frames (R281, R285), and nothing left over while it waits. -/
abbrev pcmInv (s : State) : Prop :=
  s.pcm.fill % frameBytes s.cfg.stereo = 0 ∧ s.pcm.req % frameBytes s.cfg.stereo = 0 ∧ s.pcm.req ≤ 4088 ∧
    (s.pcm.waitingRead = true → s.pcm.fill = 0 ∧ s.pcm.req = 0) ∧
    (s.pcm.waitingRead = false → s.pcm.fill < min s.cfg.bufBytes s.pcm.req)

/-- A command is held only at the stall, with cycles still to run (R200, R283), and it has passed its checks (R301). -/
abbrev heldInv (s : State) : Prop :=
  (s.held = none → s.pendingCycles = 0) ∧ (s.held ≠ none → stalled s = true ∧ s.pendingCycles ≠ 0) ∧
    s.held.all (fun i => decide (i.port = .register) && i.wellFormed) = true

/-- The fault bit and its reason agree, and no defect was met (R51, R166). -/
abbrev faultInv (s : State) : Prop := (s.faulted = true ↔ s.faultReason ≠ none) ∧ s.defectSeen = false

/-- The invariant of a block that has taken a RESET (R55, R333). -/
abbrev State.Inv (s : State) : Prop :=
  s.awaitingReset = false ∧ (∀ c : ChanIdx, channelInv (s.chan c)) ∧ masksInv s ∧ clockInv s ∧ cfgInv s ∧ pcmInv s ∧
    heldInv s ∧ faultInv s ∧ Memory.wf s.mem

/-- What an observer sees of a state (R56): the output port's events (Emits and answers), the interrupt request bits, and
the fault state, all three fields of R51. -/
structure Observation where
  out : List OutEvent
  intreq : BitVec 4
  faulted : Bool
  faultReason : Option FaultReason
  defectSeen : Bool
deriving DecidableEq, Repr

/-- The observation of a state (R56). -/
def observe (s : State) : Observation :=
  { out := s.out, intreq := s.intreq, faulted := s.faulted, faultReason := s.faultReason, defectSeen := s.defectSeen }

/-- The register port takes the command in `s`: the block is not faulted, a RESET was taken, no command is held, and time
does not run backwards (R200, R283, R300, R333). -/
abbrev accepts (s : State) : Prop :=
  s.faulted = false ∧ s.awaitingReset = false ∧ s.held = none ∧ s.lastCycles ≤ s.now

/-- The register port takes the command in `s` and its catch-up runs to the end without a stall (R120, R200). -/
abbrev completes (cmd : Instr) (s : State) : Prop := accepts s ∧ (caughtUp cmd s).pendingCycles = 0

/-- What a register-port command does: in every state in which it completes, `exec` answers the state `t` makes of the
caught-up state (R120: catch-up first, then the effect). -/
abbrev completesAs (cmd : Instr) (t : State → State) : Prop :=
  ∀ s : State, completes cmd s → exec cmd s = .next (t (caughtUp cmd s))

/-- A significand and an exponent that the format holds, infinity or NaN (R11). -/
def inFormat (f : FpFormat) (a : Fp) : Prop :=
  match a with
  | .nan => True
  | .inf _ => True
  | .fin _ m e => (m = 0 ∧ e = 0) ∨ (0 < m ∧ m < 2 ^ fpPrecision f ∧ fpMinExp f ≤ e ∧ e ≤ fpMaxExp f)

/-- The number that a sign, a significand and an exponent stand for (R11). -/
def fpValue (neg : Bool) (m : Nat) (e : Int) : ℚ := if neg then -((m : ℚ) * 2 ^ e) else (m : ℚ) * 2 ^ e

/-- `r` is the value of the format nearest to `x ≥ 0` with the sign `neg`, a tie going to the even significand (R11): an
infinity from the bound on where the largest value would round up, else a zero, or a significand of full precision (fewer
bits only at the smallest exponent) within half a unit of its last place, a quarter below a power of two. -/
def rounds (f : FpFormat) (neg : Bool) (x : ℚ) (r : Fp) : Prop :=
  match r with
  | .nan => False
  | .inf n => n = neg ∧ ((2 : ℚ) ^ (fpPrecision f + 1) - 1) * 2 ^ (fpMaxExp f - 1) ≤ x
  | .fin n m e =>
    n = neg ∧ inFormat f (.fin n m e) ∧
      (m = 0 → x ≤ 2 ^ (fpMinExp f - 1)) ∧
      (m ≠ 0 → (2 ^ (fpPrecision f - 1) ≤ m ∨ e = fpMinExp f) ∧
        2 * |(m : ℚ) * 2 ^ e - x| ≤ 2 ^ e ∧ (2 * |(m : ℚ) * 2 ^ e - x| = 2 ^ e → m % 2 = 0) ∧
        (m = 2 ^ (fpPrecision f - 1) → e = fpMinExp f ∨ 4 * ((m : ℚ) * 2 ^ e - x) ≤ 2 ^ e))

/-- The coefficients of a biquad section, in R260's order. -/
def biquadList (k : BiquadCoefs) : List Fp := [k.b0, k.b1, k.b2, k.a1, k.a2]

/-- The coefficients of an enhanced topology (R260). -/
def enhancedList (k : EnhancedCoefs) : List Fp := k.ap :: biquadList k.bq0 ++ biquadList k.bq1

/-- The coefficients that a filter setting uses (R260); OFF uses none (R269). -/
def usedCoefs (t : FilterName) (k : CoefSets) : List Fp :=
  match t with
  | .off => []
  | .a500 => [k.a500a1, k.a500a2]
  | .a1200 => [k.a1200a2]
  | .a500e => enhancedList k.a500e
  | .a1200e => enhancedList k.a1200e
  | .other => []

/-- Every coefficient of a record (R260). -/
def allCoefs (k : CoefSets) : List Fp :=
  [k.a500a1, k.a500a2, k.a1200a2] ++ enhancedList k.a500e ++ enhancedList k.a1200e

/-- How many sample events the loop of a catch-up makes in at most `n` iterations (R202). -/
def sampleEvents (n : Nat) (s : State) : Nat :=
  match n with
  | 0 => 0
  | n + 1 =>
    if s.pendingCycles = 0 then 0
    else if stalled s then 0
    else (if (elapse (best s) s).nextSampleEvtime = 0 then 1 else 0) + sampleEvents n (iteration s)

end Sys2Proof.Machine
end

