-- ==== Sys2Proof/Certificates/Slice0/Obligations.lean ====
section
/-! DEFINITION. The statements about the machine, each from the rules of spec/ that its docstring cites. -/

open Sys2Proof Sys2Proof.Machine

/-! ## Encoding and the step -/

/-- Decode and encode agree (R92, R93, R94, R97): the word of every command, with every operand at every value its field
holds, decodes on the command's own port to that command, and is refused on the other port (R95). -/
def Obligations.EncodedCommandDecodesBack : Prop :=
  ∀ i : Instr, decodeOn i.port (encode i) = .instr i ∧
    ∀ p : Port, p ≠ i.port → decodeOn p (encode i) = .rejected .wrongPort

/-- Each word has one meaning (R92, R93, R97): a word that decodes to a command is that command's encoding, and stands on
its port. -/
def Obligations.DecodedWordIsTheCommandsEncoding : Prop :=
  ∀ (p : Port) (w : CmdWord) (i : Instr), decodeOn p w = .instr i → encode i = w ∧ i.port = p

/-- The sample encodings of R101, row by row, and its two illegal words. -/
def Obligations.SampleEncodingsDecode : Prop :=
  decodeOn .register 0x00A00001#32 = .instr (.aud0lch 0x0001) ∧
  decodeOn .register 0x00A22000#32 = .instr (.aud0lcl 0x2000) ∧
  decodeOn .register 0x00A40004#32 = .instr (.aud0len 0x0004) ∧
  decodeOn .register 0x00A601AC#32 = .instr (.aud0per 0x01AC) ∧
  decodeOn .register 0x00C8007F#32 = .instr (.aud2vol 0x007F) ∧
  decodeOn .register 0x00DA1234#32 = .instr (.aud3dat 0x1234) ∧
  decodeOn .register 0x00968201#32 = .instr (.dmacon 0x8201) ∧
  decodeOn .register 0x009C0080#32 = .instr (.intreq 0x0080) ∧
  decodeOn .register 0x009E8011#32 = .instr (.adkcon 0x8011) ∧
  decodeOn .register 0x101E0000#32 = .instr .intreqr ∧
  decodeOn .register 0x20000000#32 = .instr .sync ∧
  decodeOn .register 0x30000000#32 = .instr .lineSync ∧
  decodeOn .register 0x40000001#32 = .instr (.setled true) ∧
  decodeOn .register 0x500000E3#32 = .instr (.setmaxhpos 227) ∧
  decodeOn .register 0x60000050#32 = .instr (.setsevt 80) ∧
  decodeOn .control 0x80000800#32 = .instr (.read 2048) ∧
  decodeOn .control 0x90000000#32 = .instr .reset ∧
  decodeOn .register 0x00AC0000#32 = .rejected .unknownOffset ∧
  decodeOn .register 0x70000000#32 = .rejected .reservedClass

/-- Exactly the words of R92 and R93 are commands: on each port, a word decodes if and only if its class is one of that
port's, its zero fields are 0, and a register offset is one that R93 lists with that access (R92, R93, R95). -/
def Obligations.LegalWordsAreExactlyTheTables : Prop :=
  (∀ w : CmdWord, (∃ i, decodeOn .register w = .instr i) ↔
    (w.extractLsb' 28 4 = 0x0#4 ∧ w.extractLsb' 25 3 = 0#3 ∧
      (w.extractLsb' 16 9 = 0x096#9 ∨ w.extractLsb' 16 9 = 0x09C#9 ∨ w.extractLsb' 16 9 = 0x09E#9 ∨
        ∃ (c : Fin 4) (r : Fin 6), (w.extractLsb' 16 9).toNat = 0x0A0 + 0x10 * c.val + 2 * r.val)) ∨
    (w.extractLsb' 28 4 = 0x1#4 ∧ w.extractLsb' 25 3 = 0#3 ∧ w.extractLsb' 0 16 = 0#16 ∧
      (w.extractLsb' 16 9 = 0x002#9 ∨ w.extractLsb' 16 9 = 0x010#9 ∨ w.extractLsb' 16 9 = 0x01E#9)) ∨
    ((w.extractLsb' 28 4 = 0x2#4 ∨ w.extractLsb' 28 4 = 0x3#4) ∧ w.extractLsb' 0 28 = 0#28) ∨
    (w.extractLsb' 28 4 = 0x4#4 ∧ w.extractLsb' 1 27 = 0#27) ∨
    (w.extractLsb' 28 4 = 0x5#4 ∧ w.extractLsb' 16 12 = 0#12) ∨
    w.extractLsb' 28 4 = 0x6#4) ∧
  (∀ w : CmdWord, (∃ i, decodeOn .control w = .instr i) ↔
    (w.extractLsb' 28 4 = 0x8#4 ∧ w.extractLsb' 16 12 = 0#12) ∨ (w.extractLsb' 28 4 = 0x9#4 ∧ w.extractLsb' 0 28 = 0#28))

/-- A step runs the decoded command: the oldest command issued, its sideband (R91) latched, taken off the queue; and the
command that `withFetchWord` places is run as the very next one. That the two ports of R90 share one queue in order of arrival
is the model's choice (log 1, DESIGN CHOICE), and so is what `withFetchWord` places (log 2, DESIGN CHOICE). -/
def Obligations.StepRunsTheDecodedCommand : Prop :=
  (∀ (s : State) (w : CmdWord) (t : BitVec 64) (rest : List Input) (i : Instr),
    s.held = none → s.inputs = .register w t :: rest → decodeOn .register w = .instr i →
      step s = exec i { s with inputs := rest, now := t }) ∧
  (∀ (s : State) (w : CmdWord) (t : BitVec 64) (cfg : RawCfg) (rest : List Input) (i : Instr),
    s.held = none → s.inputs = .control w t cfg :: rest → decodeOn .control w = .instr i →
      step s = exec i { s with inputs := rest, now := t, cfgIn := cfg }) ∧
  (∀ (s : State) (w : Nat) (i : Instr), decodeTableWord 32 w = some i →
    step (s.withFetchWord 32 w) =
      if i.port = .register then exec i { s with held := none, pendingCycles := 0, now := s.lastCycles }
      else exec i { s with now := s.lastCycles })

/-- While a command is held the register port is not ready and the control port stays open (R283): the step takes the
oldest control-port command past every register-port command and host write before it, and does nothing where there is
none. That the two ports share one arrival order is the model's choice (log 1, DESIGN CHOICE); that host writes of the
memory wait too is read from R80 by inference (log 6, DEDUCED); that both wait in a block that has taken no RESET as well is
the model's choice (log 21, DESIGN CHOICE). -/
def Obligations.HeldCommandLeavesControlPortOpen : Prop :=
  (∀ (s : State) (before rest : List Input) (w : CmdWord) (t : BitVec 64) (cfg : RawCfg) (i : Instr),
    s.held ≠ none → s.inputs = before ++ .control w t cfg :: rest → (∀ x ∈ before, x.isControl = false) →
      decodeOn .control w = .instr i → step s = exec i { s with inputs := before ++ rest, now := t, cfgIn := cfg }) ∧
  (∀ s : State, s.held ≠ none → (∀ x ∈ s.inputs, x.isControl = false) → step s = .next s)

/-- An illegal command does nothing but raise IllegalCommand (R95, R300), on either port; on the control port also while a
command is held, where that port stays open (R283) and its oldest word is taken past the inputs of the other (log 1). -/
def Obligations.IllegalWordOnlyFaults : Prop :=
  (∀ (s : State) (w : CmdWord) (t : BitVec 64) (rest : List Input) (why : Reject),
    s.faulted = false → s.awaitingReset = false → s.held = none → s.inputs = .register w t :: rest →
      decodeOn .register w = .rejected why →
      step s = .next { s with inputs := rest, now := t, faulted := true, faultReason := some .illegalCommand }) ∧
  (∀ (s : State) (w : CmdWord) (t : BitVec 64) (cfg : RawCfg) (before rest : List Input) (why : Reject),
    s.faulted = false → s.awaitingReset = false → s.inputs = before ++ .control w t cfg :: rest →
      (∀ x ∈ before, x.isControl = false) → (s.held = none → before = []) → decodeOn .control w = .rejected why →
      step s = .next { s with inputs := before ++ rest, now := t, cfgIn := cfg, faulted := true,
                              faultReason := some .illegalCommand })

/-- A host write reaches the external memory in the order issued (R80; log 6): the byte written is read back, every other
byte reads as before, and the block's own state does not change. -/
def Obligations.HostWriteReachesMemoryInOrder : Prop :=
  ∀ (s : State) (a : BitVec 32) (b : Byte) (rest : List Input),
    s.held = none → s.inputs = .hostWrite a b :: rest → Memory.wf s.mem →
      ∃ m : Memory, step s = .next { s with inputs := rest, mem := m } ∧ Memory.wf m ∧
        ∀ x : Nat, Memory.read m x = if x = a.toNat then b else Memory.read s.mem x

/-! ## Faults -/

/-- A faulted block ignores every command except RESET (R300); so does a block that has taken no RESET since power-on (R333;
the bit for it is log 8, DEDUCED). That it ignores illegal and misplaced words too, on either port and with or without a
command held, is read from those rules by inference (log 19, DEDUCED). -/
def Obligations.FaultedBlockIgnoresAllButReset : Prop :=
  (∀ (i : Instr) (s : State), s.faulted = true ∨ s.awaitingReset = true → i ≠ .reset → exec i s = .next s) ∧
  (∀ (s : State) (w : CmdWord) (t : BitVec 64) (rest : List Input) (why : Reject),
    s.faulted = true ∨ s.awaitingReset = true → s.held = none → s.inputs = .register w t :: rest →
      decodeOn .register w = .rejected why → step s = .next { s with inputs := rest, now := t }) ∧
  (∀ (s : State) (w : CmdWord) (t : BitVec 64) (cfg : RawCfg) (before rest : List Input) (why : Reject),
    s.faulted = true ∨ s.awaitingReset = true → s.inputs = before ++ .control w t cfg :: rest →
      (∀ x ∈ before, x.isControl = false) → (s.held = none → before = []) → decodeOn .control w = .rejected why →
      step s = .next { s with inputs := before ++ rest, now := t, cfgIn := cfg })

/-- A register-port command whose `now` lies before `G.last_cycles` raises TimeReversal and does nothing else (R200,
R300), whichever command it is. -/
def Obligations.EarlierNowIsTimeReversal : Prop :=
  ∀ (i : Instr) (s : State), i.port = .register → i.wellFormed = true → s.faulted = false → s.awaitingReset = false →
    s.held = none → s.now < s.lastCycles →
      exec i s = .next { s with faulted := true, faultReason := some .timeReversal }

/-- SET_MAXHPOS 0 and SET_SAMPLE_EVTIME 0 raise ConfigError and do nothing else (R96), whatever `now` is: the value check
comes before the time check (R301). -/
def Obligations.ZeroIntervalIsConfigError : Prop :=
  ∀ s : State, s.faulted = false → s.awaitingReset = false → s.held = none →
    exec (.setmaxhpos 0) s = .next { s with faulted := true, faultReason := some .configError } ∧
    exec (.setsevt 0) s = .next { s with faulted := true, faultReason := some .configError }

/-! ## RESET and READ -/

/-- RESET (R330, R332), in every state, faulted and stalled included: a valid configuration sets every field to its reset
value; an invalid one raises ConfigError and does nothing else. That it leaves the memory, the inputs, the sideband and what
was sent is the model's choice (log 13, DESIGN CHOICE), and the bit `awaitingReset` is the model's (log 8, DEDUCED). -/
def Obligations.ResetSetsEveryField : Prop :=
  (encode .reset = 0x90000000#32 ∧
    ∀ x : BitVec 28, x ≠ 0 → decodeOn .control (0x9#4 ++ x) = .rejected .reservedBits) ∧
  (∀ s : State, loadCfg s.cfgIn = none →
    exec .reset s = .next { s with faulted := true, faultReason := some .configError }) ∧
  ∀ (s : State) (cfg : Cfg), loadCfg s.cfgIn = some cfg →
    ∃ t : State, exec .reset s = .next t ∧
      (∀ c : ChanIdx, t.chan c =
        { state := 0, per := 65535, len := 0, wlen := 0, vol := 0, lc := 0, pt := 0, dat := 0, nextdat := 0, evtime := 0,
          currentSample := 0, lastSample0 := 0, lastSample1 := 0, lastSample2 := 0, dmaen := false, intreq2 := false,
          dataWritten := false, adkMask := 0xFFFFFFFF }) ∧
      t.lastCycles = s.now ∧ t.pendingCycles = 0 ∧ t.held = none ∧ t.sampleEvtime = cfg.sampleEvtime ∧
      t.nextSampleEvtime = cfg.sampleEvtime ∧ t.maxhpos = cfg.maxhpos ∧ t.adkcon = 0 ∧ t.dmacon = 0 ∧ t.intreq = 0 ∧
      t.led = false ∧
      (∀ r : FilterRec, r = t.filterL ∨ r = t.filterR →
        ∀ x ∈ [r.rc1, r.rc2, r.rc3, r.bq0.x0, r.bq0.x1, r.bq0.y0, r.bq0.y1, r.bq1.x0, r.bq1.x1, r.bq1.y0, r.bq1.y1],
          x = .fin false 0 0) ∧
      t.pcm.fill = 0 ∧ t.pcm.req = 0 ∧ t.pcm.waitingRead = true ∧ t.faulted = false ∧ t.faultReason = none ∧
      t.defectSeen = false ∧ t.awaitingReset = false ∧ t.cfg = cfg ∧
      t.mem = s.mem ∧ t.inputs = s.inputs ∧ t.now = s.now ∧ t.cfgIn = s.cfgIn ∧ t.out = s.out

/-- The configurations that R331 calls valid are exactly those RESET takes, and the record it then holds is the one it was
given, its names read as R231 and R331 list them and every coefficient (R260) rounded to the format. That coefficients are
rounded, and rounded before they are tested, is the model's choice (log 11, DESIGN CHOICE); `other` stands for every unlisted
name (log 12, DEDUCED). -/
def Obligations.ValidConfigurationsAreTaken : Prop :=
  (∀ r : RawCfg, (loadCfg r).isSome = true ↔
    r.interp ≠ .other ∧ r.filter ≠ .other ∧ r.filterFp ≠ .other ∧ (1 ≤ r.maxhpos ∧ r.maxhpos ≤ 65535) ∧
      (1 ≤ r.sampleEvtime ∧ r.sampleEvtime ≤ 2 ^ 28 - 1) ∧ r.produceSound ≤ 3 ∧ r.fastTier ≤ 3 ∧
      (1 ≤ r.bufBytes ∧ r.bufBytes ≤ 4088) ∧ r.bufBytes % (if r.stereo then 4 else 2) = 0 ∧
      ∀ k ∈ usedCoefs r.filter r.coefs, ∃ (neg : Bool) (m : Nat) (e : Int),
        fpConvert (if r.filterFp = .binary32 then .binary32 else .binary64) k = .fin neg m e) ∧
  (∀ (r : RawCfg) (cfg : Cfg), loadCfg r = some cfg →
    cfg.maxhpos.toNat = r.maxhpos ∧ cfg.sampleEvtime.toNat = r.sampleEvtime ∧ cfg.stereo = r.stereo ∧
      cfg.produceSound.val = r.produceSound ∧ cfg.fastTier.val = r.fastTier ∧ cfg.safetyClamp = r.safetyClamp ∧
      cfg.bufBytes = r.bufBytes ∧ allCoefs cfg.coefs = (allCoefs r.coefs).map (fpConvert cfg.fp) ∧
      (r.interp, cfg.interp) ∈
        [(.default, .nearest), (.rh, .linear), (.linear, .linear), (.crux, .crux), (.cspline, .cspline), (.anti, .anti)] ∧
      (r.filter, cfg.filter) ∈ [(.off, .off), (.a500, .a500), (.a1200, .a1200), (.a500e, .a500e), (.a1200e, .a1200e)] ∧
      (r.filterFp, cfg.fp) ∈ [(.binary32, .binary32), (.binary64, .binary64)])

/-- READ (R285): an outstanding request is a ProtocolViolation; else the count is clamped to 4088 and rounded down to whole
frames; a count below one frame leaves the block waiting; else the request is taken, and a held catch-up resumes at its loop
(R200): iterations run while cycles are left and the stall of R283 has not come again; where none are left the answer is the
held command's effect, which is the one it has where it is not held, with nothing held any more; where the stall comes again
the command stays held. In a state that meets the invariant one of the two happens; the bound on the iterations is the
model's (log 9, DEDUCED). -/
def Obligations.ReadTakesItsRequest : Prop :=
  ∀ (nbytes : Word) (s : State), s.faulted = false → s.awaitingReset = false →
    encode (.read nbytes) = 0x8000#16 ++ nbytes ∧
    (s.pcm.waitingRead = false →
      exec (.read nbytes) s = .next { s with faulted := true, faultReason := some .protocolViolation }) ∧
    (s.pcm.waitingRead = true →
      ∀ (frameLen n : Nat), frameLen = (if s.cfg.stereo then 4 else 2) →
        n = min nbytes.toNat 4088 - min nbytes.toNat 4088 % frameLen →
        (n = 0 → exec (.read nbytes) s = .next s) ∧
        (n ≠ 0 → s.held = none →
          exec (.read nbytes) s = .next { s with pcm := { buf := s.pcm.buf, req := n, waitingRead := false } }) ∧
        (∀ cmd : Instr, n ≠ 0 → s.held = some cmd →
          let u : State := { s with pcm := { buf := s.pcm.buf, req := n, waitingRead := false } }
          let d : State := drain (drainBound u) u
          (∃ j : Nat, d = iteration^[j] u ∧
            ∀ i < j, (iteration^[i] u).pendingCycles ≠ 0 ∧ stalled (iteration^[i] u) = false) ∧
          (d.pendingCycles = 0 → exec (.read nbytes) s = .next (effect cmd { d with held := none })) ∧
          (d.pendingCycles ≠ 0 → stalled d = true → exec (.read nbytes) s = .next d ∧ d.held = some cmd) ∧
          (State.Inv s → d.pendingCycles = 0 ∨ stalled d = true))) ∧
    (∀ cmd : Instr, cmd.port = .register → cmd.wellFormed = true → completesAs cmd (effect cmd))

/-! ## Register writes and reads: each completes as its rule says, on the caught-up state -/

/-- AUD0LCH to AUD3LCH: `ch[c].lc[31:16] <- data`, and nothing else (R125). -/
def Obligations.AudLchSetsHighHalf : Prop :=
  ∀ data : Word,
    (encode (.aud0lch data) = 0x00A0#16 ++ data ∧ encode (.aud1lch data) = 0x00B0#16 ++ data ∧
      encode (.aud2lch data) = 0x00C0#16 ++ data ∧ encode (.aud3lch data) = 0x00D0#16 ++ data) ∧
    completesAs (.aud0lch data) (fun u => u.modChan 0 fun k => { k with lc := data ++ k.lc.extractLsb' 0 16 }) ∧
    completesAs (.aud1lch data) (fun u => u.modChan 1 fun k => { k with lc := data ++ k.lc.extractLsb' 0 16 }) ∧
    completesAs (.aud2lch data) (fun u => u.modChan 2 fun k => { k with lc := data ++ k.lc.extractLsb' 0 16 }) ∧
    completesAs (.aud3lch data) (fun u => u.modChan 3 fun k => { k with lc := data ++ k.lc.extractLsb' 0 16 })

/-- AUD0LCL to AUD3LCL: `ch[c].lc[15:0] <- data & 0xFFFE`, and nothing else (R126). -/
def Obligations.AudLclSetsLowHalfEven : Prop :=
  ∀ data : Word,
    (encode (.aud0lcl data) = 0x00A2#16 ++ data ∧ encode (.aud1lcl data) = 0x00B2#16 ++ data ∧
      encode (.aud2lcl data) = 0x00C2#16 ++ data ∧ encode (.aud3lcl data) = 0x00D2#16 ++ data) ∧
    completesAs (.aud0lcl data)
      (fun u => u.modChan 0 fun k => { k with lc := k.lc.extractLsb' 16 16 ++ (data &&& 0xFFFE#16) }) ∧
    completesAs (.aud1lcl data)
      (fun u => u.modChan 1 fun k => { k with lc := k.lc.extractLsb' 16 16 ++ (data &&& 0xFFFE#16) }) ∧
    completesAs (.aud2lcl data)
      (fun u => u.modChan 2 fun k => { k with lc := k.lc.extractLsb' 16 16 ++ (data &&& 0xFFFE#16) }) ∧
    completesAs (.aud3lcl data)
      (fun u => u.modChan 3 fun k => { k with lc := k.lc.extractLsb' 16 16 ++ (data &&& 0xFFFE#16) })

/-- AUD0LEN to AUD3LEN: `ch[c].len <- data`, and nothing else: `wlen` is not changed (R124). -/
def Obligations.AudLenSetsTheLatch : Prop :=
  ∀ data : Word,
    (encode (.aud0len data) = 0x00A4#16 ++ data ∧ encode (.aud1len data) = 0x00B4#16 ++ data ∧
      encode (.aud2len data) = 0x00C4#16 ++ data ∧ encode (.aud3len data) = 0x00D4#16 ++ data) ∧
    completesAs (.aud0len data) (fun u => u.modChan 0 fun k => { k with len := data }) ∧
    completesAs (.aud1len data) (fun u => u.modChan 1 fun k => { k with len := data }) ∧
    completesAs (.aud2len data) (fun u => u.modChan 2 fun k => { k with len := data }) ∧
    completesAs (.aud3len data) (fun u => u.modChan 3 fun k => { k with len := data })

/-- AUD0PER to AUD3PER: `ch[c].per <- per_rule(data)`, and nothing else: `evtime` is not changed (R122). -/
def Obligations.AudPerSetsThePeriod : Prop :=
  ∀ data : Word,
    (encode (.aud0per data) = 0x00A6#16 ++ data ∧ encode (.aud1per data) = 0x00B6#16 ++ data ∧
      encode (.aud2per data) = 0x00C6#16 ++ data ∧ encode (.aud3per data) = 0x00D6#16 ++ data) ∧
    completesAs (.aud0per data) (fun u => u.modChan 0 fun k => { k with per := perRule u data }) ∧
    completesAs (.aud1per data) (fun u => u.modChan 1 fun k => { k with per := perRule u data }) ∧
    completesAs (.aud2per data) (fun u => u.modChan 2 fun k => { k with per := perRule u data }) ∧
    completesAs (.aud3per data) (fun u => u.modChan 3 fun k => { k with per := perRule u data })

/-- AUD0VOL to AUD3VOL: `ch[c].vol <- vol_rule(data)`, and nothing else, where `vol_rule` is 63 if bit 6 is set and bits
5..0 otherwise (R123). -/
def Obligations.AudVolSetsTheVolume : Prop :=
  ∀ (data : Word) (v : BitVec 7), v.toNat = (if data.getLsbD 6 then 63 else data.toNat % 64) →
    (encode (.aud0vol data) = 0x00A8#16 ++ data ∧ encode (.aud1vol data) = 0x00B8#16 ++ data ∧
      encode (.aud2vol data) = 0x00C8#16 ++ data ∧ encode (.aud3vol data) = 0x00D8#16 ++ data) ∧
    completesAs (.aud0vol data) (fun u => u.modChan 0 fun k => { k with vol := v }) ∧
    completesAs (.aud1vol data) (fun u => u.modChan 1 fun k => { k with vol := v }) ∧
    completesAs (.aud2vol data) (fun u => u.modChan 2 fun k => { k with vol := v }) ∧
    completesAs (.aud3vol data) (fun u => u.modChan 3 fun k => { k with vol := v })

/-- AUD0DAT to AUD3DAT (R127): `dat` takes the data; an idle channel whose request bit is clear goes to state 2 and raises
it; `evtime` always takes `per`; nothing else changes. -/
def Obligations.AudDatStoresAndStarts : Prop :=
  ∀ data : Word,
    (encode (.aud0dat data) = 0x00AA#16 ++ data ∧ encode (.aud1dat data) = 0x00BA#16 ++ data ∧
      encode (.aud2dat data) = 0x00CA#16 ++ data ∧ encode (.aud3dat data) = 0x00DA#16 ++ data) ∧
    completesAs (.aud0dat data) (fun u =>
      if (u.chan 0).state = 0 ∧ u.intreq.getLsbD 0 = false then
        { u.modChan 0 (fun k => { k with dat := data, state := 2, evtime := k.per.setWidth 32 }) with
          intreq := u.intreq ||| 0b0001#4 }
      else u.modChan 0 fun k => { k with dat := data, evtime := k.per.setWidth 32 }) ∧
    completesAs (.aud1dat data) (fun u =>
      if (u.chan 1).state = 0 ∧ u.intreq.getLsbD 1 = false then
        { u.modChan 1 (fun k => { k with dat := data, state := 2, evtime := k.per.setWidth 32 }) with
          intreq := u.intreq ||| 0b0010#4 }
      else u.modChan 1 fun k => { k with dat := data, evtime := k.per.setWidth 32 }) ∧
    completesAs (.aud2dat data) (fun u =>
      if (u.chan 2).state = 0 ∧ u.intreq.getLsbD 2 = false then
        { u.modChan 2 (fun k => { k with dat := data, state := 2, evtime := k.per.setWidth 32 }) with
          intreq := u.intreq ||| 0b0100#4 }
      else u.modChan 2 fun k => { k with dat := data, evtime := k.per.setWidth 32 }) ∧
    completesAs (.aud3dat data) (fun u =>
      if (u.chan 3).state = 0 ∧ u.intreq.getLsbD 3 = false then
        { u.modChan 3 (fun k => { k with dat := data, state := 2, evtime := k.per.setWidth 32 }) with
          intreq := u.intreq ||| 0b1000#4 }
      else u.modChan 3 fun k => { k with dat := data, evtime := k.per.setWidth 32 })

/-- ADKCON (R128, R45): the SET/CLR update of `G.ADKCON[14:0]`, every channel's mask recomputed from it, nothing else. -/
def Obligations.AdkconUpdatesBitsAndMasks : Prop :=
  ∀ data : Word, encode (.adkcon data) = 0x009E#16 ++ data ∧ completesAs (.adkcon data) (fun u =>
    let a : BitVec 15 :=
      if data.getLsbD 15 then u.adkcon ||| data.extractLsb' 0 15 else u.adkcon &&& ~~~(data.extractLsb' 0 15)
    let m : Nat → BitVec 32 := fun c => if a.getLsbD c = true ∨ a.getLsbD (c + 4) = true then 0x00000000 else 0xFFFFFFFF
    { u with
      adkcon := a
      ch := { q0 := { u.chan 0 with adkMask := m 0 }, q1 := { u.chan 1 with adkMask := m 1 },
              q2 := { u.chan 2 with adkMask := m 2 }, q3 := { u.chan 3 with adkMask := m 3 } } })

/-- DMACON (R129): the SET/CLR update of `G.DMACON[14:0]`; nothing else changes now. -/
def Obligations.DmaconUpdatesBits : Prop :=
  ∀ data : Word, encode (.dmacon data) = 0x0096#16 ++ data ∧ completesAs (.dmacon data) (fun u =>
    { u with
      dmacon :=
        if data.getLsbD 15 then u.dmacon ||| data.extractLsb' 0 15 else u.dmacon &&& ~~~(data.extractLsb' 0 15) })

/-- INTREQ (R130): the SET/CLR update of `G.INTREQ[10:7]` from `data[10:7]`; nothing else changes. -/
def Obligations.IntreqUpdatesRequestBits : Prop :=
  ∀ data : Word, encode (.intreq data) = 0x009C#16 ++ data ∧ completesAs (.intreq data) (fun u =>
    { u with
      intreq := if data.getLsbD 15 then u.intreq ||| data.extractLsb' 7 4 else u.intreq &&& ~~~(data.extractLsb' 7 4) })

/-- DMACONR, ADKCONR, INTREQR (R131): the answer on the output port is the zero-extended register (INTREQ's four bits at
10..7); nothing else changes. -/
def Obligations.ReadsAnswerTheRegister : Prop :=
  (encode .dmaconr = 0x10020000#32 ∧ encode .adkconr = 0x10100000#32 ∧ encode .intreqr = 0x101E0000#32) ∧
  completesAs .dmaconr (fun u => { u with out := u.out ++ [.answer (BitVec.ofNat 16 u.dmacon.toNat)] }) ∧
  completesAs .adkconr (fun u => { u with out := u.out ++ [.answer (BitVec.ofNat 16 u.adkcon.toNat)] }) ∧
  completesAs .intreqr (fun u => { u with out := u.out ++ [.answer (BitVec.ofNat 16 (u.intreq.toNat * 2 ^ 7))] })

/-- SYNC has an empty effect (R210); SET_LED, SET_MAXHPOS and SET_SAMPLE_EVTIME each set their one field and nothing else:
stored periods and countdowns stay (R270, R213, R214). -/
def Obligations.TimingCommandsSetTheirField : Prop :=
  (encode .sync = 0x20000000#32 ∧ completesAs .sync (fun u => u)) ∧
  (∀ led : Bool, encode (.setled led) = 0x40000000#32 ||| (if led then 1 else 0) ∧
    completesAs (.setled led) (fun u => { u with led := led })) ∧
  (∀ value : BitVec 16, value ≠ 0 → encode (.setmaxhpos value) = 0x5000#16 ++ value ∧
    completesAs (.setmaxhpos value) (fun u => { u with maxhpos := value })) ∧
  (∀ value : BitVec 28, value ≠ 0 → encode (.setsevt value) = 0x6#4 ++ value ∧
    completesAs (.setsevt value) (fun u => { u with sampleEvtime := value }))

/-- LINE_SYNC: the line service of channels 0, 1, 2, 3, in that order, after the catch-up (R212). -/
def Obligations.LineSyncServicesEveryChannel : Prop :=
  encode .lineSync = 0x30000000#32 ∧
  completesAs .lineSync (fun u => lineService 3 (lineService 2 (lineService 1 (lineService 0 u))))

/-- The PER value map (R121), value by value, and the clamps it guarantees. -/
def Obligations.PerRuleClamps : Prop :=
  ∀ (s : State) (v : Word),
    (perRule s v).toNat =
      (let p0 := if v.toNat = 0 then 65535 else v.toNat
       let p1 := if s.cfg.safetyClamp = true ∧ p0 < 16 then 16 else p0
       if s.cfg.fastTier.val < 3 ∧ p1 < s.maxhpos.toNat / 2 then s.maxhpos.toNat / 2 else p1) ∧
    1 ≤ (perRule s v).toNat ∧ (s.cfg.safetyClamp = true → 16 ≤ (perRule s v).toNat) ∧
    (s.cfg.fastTier.val < 3 → s.maxhpos.toNat / 2 ≤ (perRule s v).toNat)

/-! ## Catch-up, the port and the stall -/

/-- A command at `now = G.last_cycles` runs no iteration (R210, R336): its effect meets the state as it stood. -/
def Obligations.NoTimePassedRunsNoIteration : Prop :=
  ∀ (cmd : Instr) (s : State), s.now = s.lastCycles → s.pendingCycles = 0 → s.held = none → caughtUp cmd s = s

/-- At the stall (R283) a register-port command with time to run is held with its cycles pending, and runs no iteration. The
second clause, that `exec` of a register-port command answers the state unchanged while another is held, is the model's
reading of "takes no command" (log 18, DEDUCED). -/
def Obligations.StalledPortHoldsTheCommand : Prop :=
  (∀ (i : Instr) (s : State), i.port = .register → i.wellFormed = true → accepts s → s.pendingCycles = 0 →
    s.lastCycles < s.now → s.pcm.waitingRead = true → 2 ≤ s.cfg.produceSound.val →
      exec i s = .next { s with pendingCycles := s.now - s.lastCycles, lastCycles := s.now, held := some i }) ∧
  (∀ (i : Instr) (s : State), i.port = .register → s.held ≠ none → exec i s = .next s)

/-- Below tier 2 nothing stalls (R283): every well-formed register-port command that the port takes completes. -/
def Obligations.BelowTierTwoEveryCommandCompletes : Prop :=
  ∀ (i : Instr) (s : State), State.Inv s → i.port = .register → i.wellFormed = true → s.cfg.produceSound.val < 2 →
    accepts s → completes i s

/-- How often the host synchronises does not matter (R215): before any register-port command at `t2`, a SYNC at `t1` that
completes changes nothing of what that command answers. -/
def Obligations.ExtraSyncChangesNothing : Prop :=
  ∀ (i : Instr) (s u : State) (t1 t2 : BitVec 64), i.port = .register → i.wellFormed = true →
    State.Inv s → accepts { s with now := t1 } → t1 ≤ t2 →
    exec .sync { s with now := t1 } = .next u → u.held = none →
      exec i { u with now := t2 } = exec i { s with now := t2 }

/-- No cycles gained or lost (R202): over a catch-up's iterations, the cycles consumed are `k·S` plus the fall of the sample
countdown, where `k` is the number of sample events and `S` the interval. -/
def Obligations.CatchUpConservesCycles : Prop :=
  ∀ (n : Nat) (s : State),
    (s.pendingCycles.toNat : Int) - (drain n s).pendingCycles.toNat =
      sampleEvents n s * s.sampleEvtime.toNat + s.nextSampleEvtime.toNat - (drain n s).nextSampleEvtime.toNat

/-- What an iteration does (R201): `best` is the least of the budget, the sample countdown and the active channels'
countdowns; each of these falls by it, an idle channel's countdown stays, and nothing else moves; the sample event fires if
its countdown is then 0, and touches no channel; and the channel events follow in index order, each on the state the one
before it left (R204). Progress (R205): with positive countdowns an iteration moves at least one cycle, consumes what it
moves and leaves the countdowns positive. -/
def Obligations.IterationFollowsItsRule : Prop :=
  ∀ s : State,
    let n := best s
    let e := elapse n s
    let u := if e.nextSampleEvtime = 0 then sampleEvent e else e
    let event : ChanIdx → State → State := fun c t =>
      if (t.chan c).state ≠ 0 ∧ (t.chan c).evtime = 0 then advanceChannel c t else t
    (n ≤ s.pendingCycles.toNat ∧ n ≤ s.nextSampleEvtime.toNat ∧
      (∀ c : ChanIdx, (s.chan c).state ≠ 0 → n ≤ (s.chan c).evtime.toNat) ∧
      (n = s.pendingCycles.toNat ∨ n = s.nextSampleEvtime.toNat ∨
        ∃ c : ChanIdx, (s.chan c).state ≠ 0 ∧ n = (s.chan c).evtime.toNat)) ∧
    (e.pendingCycles.toNat + n = s.pendingCycles.toNat ∧ e.nextSampleEvtime.toNat + n = s.nextSampleEvtime.toNat ∧
      (∀ c : ChanIdx, (s.chan c).state ≠ 0 →
        (e.chan c).evtime.toNat + n = (s.chan c).evtime.toNat ∧
          { e.chan c with evtime := (s.chan c).evtime } = s.chan c) ∧
      (∀ c : ChanIdx, (s.chan c).state = 0 → e.chan c = s.chan c) ∧
      { e with pendingCycles := s.pendingCycles, nextSampleEvtime := s.nextSampleEvtime, ch := s.ch } = s) ∧
    { u with nextSampleEvtime := e.nextSampleEvtime, filterL := e.filterL, filterR := e.filterR, pcm := e.pcm,
             out := e.out } = e ∧
    iteration s = event 3 (event 2 (event 1 (event 0 u))) ∧
    ((∀ c : ChanIdx, channelInv (s.chan c)) → clockInv s → s.pendingCycles ≠ 0 →
      1 ≤ n ∧ (iteration s).pendingCycles.toNat + n = s.pendingCycles.toNat ∧
        (∀ c : ChanIdx, channelInv ((iteration s).chan c)) ∧ clockInv (iteration s))

/-- The sample event of an iteration fires before its channel events (R204), on the state that the countdowns' fall left: at
tier 2 or above it interpolates every channel, sums 0 and 3 to the left and 1 and 2 to the right (R239), filters each side on
its own record (R267) and appends the frame (R203); below tier 2 it only reloads its countdown. An iteration without one
leaves the buffer, the filters and the output as they are. -/
def Obligations.SampleUsesPreTransitionState : Prop :=
  ∀ s : State,
    let e := elapse (best s) s
    let t := iteration s
    let v : ChanIdx → Int := fun c => interpolate s.cfg.interp s.sampleEvtime.toNat (e.chan c)
    let l := filterSample s.cfg s.led s.filterL (v 0 + v 3)
    let r := filterSample s.cfg s.led s.filterR (v 1 + v 2)
    t.nextSampleEvtime = (if e.nextSampleEvtime = 0 then s.sampleEvtime else e.nextSampleEvtime) ∧
    (e.nextSampleEvtime = 0 ∧ 2 ≤ s.cfg.produceSound.val →
      t.filterL = l.record ∧ t.filterR = r.record ∧ t.pcm = (appendFrame l.out r.out s).pcm ∧
        t.out = (appendFrame l.out r.out s).out) ∧
    (e.nextSampleEvtime ≠ 0 ∨ s.cfg.produceSound.val < 2 →
      t.filterL = s.filterL ∧ t.filterR = s.filterR ∧ t.pcm = s.pcm ∧ t.out = s.out)

/-- No handler changes another channel's `state` or `evtime` (R204); of another channel it changes at most the next one's
`per` or `vol` (R171). -/
def Obligations.HandlerLeavesOtherChannels : Prop :=
  ∀ (c d : ChanIdx) (s : State), d ≠ c →
    (advanceChannel c s).chan d =
      { s.chan d with per := ((advanceChannel c s).chan d).per, vol := ((advanceChannel c s).chan d).vol } ∧
    (d.val ≠ c.val + 1 → (advanceChannel c s).chan d = s.chan d)

/-! ## Channel handlers -/

/-- State 1 (R162, with the word of R72, whose address R74 has even). -/
def Obligations.StateOneArmsTheChannel : Prop :=
  ∀ (c : ChanIdx) (s : State), (s.chan c).state = 1 → (s.chan c).pt.getLsbD 0 = false →
    advanceChannel c s =
      { s.modChan c (fun k =>
          { k with
            evtime := s.maxhpos.setWidth 32
            state := 5
            wlen := if k.wlen ≠ 1 then k.wlen - 1 else k.wlen
            nextdat := Memory.read s.mem k.pt.toNat ++ Memory.read s.mem (k.pt + 1).toNat
            pt := k.pt + 2 }) with
        intreq := s.intreq ||| BitVec.twoPow 4 c.val }

/-- State 5 (R163, with R160 and R161). -/
def Obligations.StateFivePlaysTheFirstByte : Prop :=
  ∀ (c : ChanIdx) (s : State), (s.chan c).state = 5 →
    advanceChannel c s =
      s.modChan c (fun k =>
        let p := if s.cfg.produceSound.val = 0 then 65535 else k.per
        { k with
          per := p
          evtime := p.setWidth 32
          dat := k.nextdat
          lastSample0 := k.currentSample
          lastSample1 := k.lastSample0
          lastSample2 := k.lastSample1
          currentSample := k.nextdat.extractLsb' 8 8
          state := 2
          dataWritten :=
            if s.adkcon.getLsbD c.val = true ∨ s.adkcon.getLsbD (c.val + 4) = false then true else k.dataWritten })

/-- State 2 (R164, with R160 and R161): the channel's own fields, the next channel's period under period attachment, the
request bit, and nothing else. -/
def Obligations.StateTwoPlaysTheLowByte : Prop :=
  ∀ (c : ChanIdx) (s : State), (s.chan c).state = 2 →
    let k := s.chan c
    let t := advanceChannel c s
    let attach := s.adkcon.getLsbD (c.val + 4)
    let p := if s.cfg.produceSound.val = 0 then 65535 else k.per
    t.chan c =
      { k with
        per := p
        evtime := p.setWidth 32
        lastSample0 := k.currentSample
        lastSample1 := k.lastSample0
        lastSample2 := k.lastSample1
        currentSample := k.dat.extractLsb' 0 8
        state := 3
        intreq2 := if attach then false else k.intreq2
        dat := if attach then k.nextdat else k.dat
        dataWritten := if attach = true ∧ k.dmaen = true then true else k.dataWritten } ∧
    (∀ d : ChanIdx, d ≠ c →
      t.chan d =
        if attach = true ∧ d.val = c.val + 1 then { s.chan d with per := perRule s k.nextdat } else s.chan d) ∧
    t.intreq =
      (if attach = true ∧ k.intreq2 = true ∧ k.dmaen = true then s.intreq ||| BitVec.twoPow 4 c.val else s.intreq) ∧
    { t with ch := s.ch, intreq := s.intreq } = s

/-- The stop of state 3 (R165): DMA off and the request bit set. -/
def Obligations.StateThreeStops : Prop :=
  ∀ (c : ChanIdx) (s : State), (s.chan c).state = 3 → (s.chan c).dmaen = false → s.intreq.getLsbD c.val = true →
    advanceChannel c s =
      s.modChan c (fun k =>
        let p := if s.cfg.produceSound.val = 0 then 65535 else k.per
        { k with
          per := p
          evtime := p.setWidth 32
          state := 0
          lastSample0 := 0
          lastSample1 := 0
          lastSample2 := 0
          currentSample := 0 })

/-- State 3 that goes on (R165, with R160 and R161): the channel's own fields, the next channel's volume under volume
attachment, the request bit, and nothing else. -/
def Obligations.StateThreePlaysTheNextWord : Prop :=
  ∀ (c : ChanIdx) (s : State), (s.chan c).state = 3 → ¬((s.chan c).dmaen = false ∧ s.intreq.getLsbD c.val = true) →
    let k := s.chan c
    let t := advanceChannel c s
    let audav := s.adkcon.getLsbD c.val
    let napnav := audav || !s.adkcon.getLsbD (c.val + 4)
    let p := if s.cfg.produceSound.val = 0 then 65535 else k.per
    t.chan c =
      { k with
        per := p
        evtime := p.setWidth 32
        state := 2
        intreq2 := false
        dat := k.nextdat
        lastSample0 := k.currentSample
        lastSample1 := k.lastSample0
        lastSample2 := k.lastSample1
        currentSample := k.nextdat.extractLsb' 8 8
        dataWritten := if k.dmaen = true ∧ napnav = true then true else k.dataWritten } ∧
    (∀ d : ChanIdx, d ≠ c →
      t.chan d = if audav = true ∧ d.val = c.val + 1 then { s.chan d with vol := volRule k.nextdat } else s.chan d) ∧
    t.intreq =
      (if (k.intreq2 = true ∧ k.dmaen = true ∧ napnav = true) ∨ (napnav = true ∧ k.dmaen = false) then
        s.intreq ||| BitVec.twoPow 4 c.val
      else s.intreq) ∧
    { t with ch := s.ch, intreq := s.intreq } = s

/-- Any other state value is a defect (R166): the channel becomes idle, the sticky bit is set, no other field changes. -/
def Obligations.DefectStateBecomesIdle : Prop :=
  ∀ (c : ChanIdx) (s : State), (s.chan c).state ≠ 1 → (s.chan c).state ≠ 2 → (s.chan c).state ≠ 3 → (s.chan c).state ≠ 5 →
    advanceChannel c s = { s.modChan c (fun k => { k with state := 0 }) with defectSeen := true }

/-- The DMA start at a line sync (R167, with R162, and the word of R72, whose address R74 has even): an idle channel whose
enable is on. -/
def Obligations.LineServiceStartsIdleChannel : Prop :=
  ∀ (c : ChanIdx) (s : State), (s.chan c).state = 0 → s.dmacon.getLsbD 9 = true → s.dmacon.getLsbD c.val = true →
    (s.chan c).lc.getLsbD 0 = false → lineService c s =
      { s.modChan c (fun k =>
          { k with
            state := 5
            evtime := s.maxhpos.setWidth 32
            wlen := if k.len ≠ 1 then k.len - 1 else 1
            nextdat := Memory.read s.mem k.lc.toNat ++ Memory.read s.mem (k.lc + 1).toNat
            pt := k.lc + 2
            dmaen := true
            dataWritten := false
            intreq2 := false }) with
        intreq := s.intreq ||| BitVec.twoPow 4 c.val }

/-- The line service of a channel that does not start (R167, R168): `dmaen` samples the enable, and a requested word is
fetched where it is on (the word of R72, whose address R74 has even), with the reload at the last word of the block. -/
def Obligations.LineServiceSamplesEnableAndRefills : Prop :=
  ∀ (c : ChanIdx) (s : State), ∀ e : Bool, e = (s.dmacon.getLsbD 9 && s.dmacon.getLsbD c.val) →
    ¬((s.chan c).state = 0 ∧ e = true) →
    ((s.chan c).dataWritten = true → e = true → (s.chan c).pt.getLsbD 0 = false) →
    lineService c s =
      s.modChan c (fun k =>
        if k.dataWritten = true ∧ e = true then
          { k with
            dmaen := true
            dataWritten := false
            nextdat := Memory.read s.mem k.pt.toNat ++ Memory.read s.mem (k.pt + 1).toNat
            pt := if k.wlen = 1 then k.lc else k.pt + 2
            wlen := if k.wlen = 1 then k.len else k.wlen - 1
            intreq2 := if k.wlen = 1 then true else k.intreq2 }
        else { k with dmaen := e })

/-! ## Interpolators, filter, buffer -/

/-- What the integer strategies give at every position: NEAREST the current sample (R232), LINEAR (R233), CRUX (R234) and
ANTI (R238) their blends of the previous and the current one, each scaled by the volume and masked (R230, where the mask of all
ones keeps the value and the mask of zeros gives 0). At position 0 these are what R240 lists. -/
def Obligations.IntegerStrategiesFollowTheirRules : Prop :=
  (∀ x : Int, masked 0x00000000#32 x = 0 ∧ (-(2 ^ 31) ≤ x → x < 2 ^ 31 → masked 0xFFFFFFFF#32 x = x)) ∧
  ∀ (k : Channel) (sev : Nat), k.per ≠ 0 → 1 ≤ sev →
    let cur := sext8 k.currentSample * (k.vol.toNat : Int)
    let prev := sext8 k.lastSample0 * (k.vol.toNat : Int)
    let ev : Int := k.evtime.toNat
    let per : Int := k.per.toNat
    let x : Int := (k.evtime.toNat % k.per.toNat * 256 / k.per.toNat : Nat)
    let ratio : Int :=
      if ev < sev ∨ 3 * (sev : Int) ≤ per - ev then 4096
      else if per - ev ≤ 0 then 0
      else Int.tdiv ((per - ev) * 4096) (3 * sev)
    let a : Int := min (max (sev - (per - ev)) 0) sev
    (interpolate .nearest sev k = masked k.adkMask cur ∧
      interpolate .linear sev k = masked k.adkMask ((prev * (256 - x) + cur * x) >>> (8 : Nat)) ∧
      interpolate .crux sev k = masked k.adkMask ((cur * ratio + prev * (4096 - ratio)) >>> (12 : Nat)) ∧
      interpolate .anti sev k = masked k.adkMask (Int.tdiv (prev * a + cur * (sev - a)) sev)) ∧
    (k.evtime.toNat % k.per.toNat = 0 → interpolate .linear sev k = masked k.adkMask prev) ∧
    (ev = per → sev ≤ per → interpolate .crux sev k = masked k.adkMask prev) ∧
    (ev = per → per < sev → interpolate .crux sev k = masked k.adkMask cur) ∧
    (ev = 0 → interpolate .crux sev k = masked k.adkMask cur) ∧
    (ev = per → interpolate .anti sev k = masked k.adkMask prev) ∧
    (ev = 0 → sev ≤ per → interpolate .anti sev k = masked k.adkMask cur) ∧
    (ev = 0 → per < sev → interpolate .anti sev k = masked k.adkMask (Int.tdiv (prev * (sev - per) + cur * per) sev))

/-- CSPLINE at every position (R235, R236): the cubic evaluated in binary64 operation by operation, truncated toward zero and
masked; the order in which it is evaluated is log 17 (DEDUCED). At fractional position 0 it is exactly the previous sample
scaled by the volume (R236, R240). -/
def Obligations.CubicFollowsItsRule : Prop :=
  (∀ (k : Channel) (sev : Nat), k.per ≠ 0 →
    let add : Fp → Fp → Fp := fpAdd .binary64
    let sub : Fp → Fp → Fp := fpSub .binary64
    let mul : Fp → Fp → Fp := fpMul .binary64
    let const : Nat → Nat → Fp := fpOfRatio .binary64 false
    let minusHalf : Fp := fpOfRatio .binary64 true 1 2
    let sample : Byte → Fp := fun b => fpOfInt .binary64 (sext8 b * (k.vol.toNat : Int))
    let c := sample k.currentSample
    let l0 := sample k.lastSample0
    let l1 := sample k.lastSample1
    let l2 := sample k.lastSample2
    let x :=
      fpDiv .binary64 (fpOfInt .binary64 (k.evtime.toNat % k.per.toNat : Nat)) (fpOfInt .binary64 (k.per.toNat : Nat))
    let b1 := add (mul minusHalf c) (mul (const 1 2) l1)
    let b2 := sub (add (sub c (mul (const 5 2) l0)) (mul (const 2 1) l1)) (mul (const 1 2) l2)
    let b3 := add (sub (add (mul minusHalf c) (mul (const 3 2) l0)) (mul (const 3 2) l1)) (mul (const 1 2) l2)
    interpolate .cspline sev k =
        masked k.adkMask
          (fpTrunc (add (add (add l0 (mul x b1)) (mul (mul x x) b2)) (mul (mul (mul x x) x) b3))) ∧
      (k.evtime.toNat % k.per.toNat = 0 →
        interpolate .cspline sev k = masked k.adkMask (sext8 k.lastSample0 * (k.vol.toNat : Int)))) ∧
  (∀ (neg : Bool) (m : Nat) (e : Int),
    let v := fpValue neg m e
    let t := fpTrunc (.fin neg m e)
    (0 ≤ v → (t : ℚ) ≤ v ∧ v < t + 1) ∧ (v ≤ 0 → v ≤ t ∧ (t : ℚ) - 1 < v))

/-- The sums cannot saturate (R239): with periods of at least 1, volumes of at most 63 and the masks of R45, whatever the
countdowns (0 where a channel event falls together with the sample event, R230), under every strategy but CSPLINE, both sums
lie within 16128 of 0. -/
def Obligations.MixStaysInRange : Prop :=
  ∀ s : State, (∀ c : ChanIdx, (s.chan c).per ≠ 0 ∧ (s.chan c).vol.toNat ≤ 63) → masksInv s → s.cfg.interp ≠ .cspline →
    -16128 ≤ mixLeft (voices s) ∧ mixLeft (voices s) ≤ 16128 ∧ -16128 ≤ mixRight (voices s) ∧ mixRight (voices s) ≤ 16128

/-- The filter's output is always a 16-bit value (R271), for every input, topology, coefficient set and LED flag. -/
def Obligations.FilterOutputSaturates : Prop :=
  ∀ (cfg : Cfg) (led : Bool) (r : FilterRec) (x : Int),
    -32768 ≤ (filterSample cfg led r x).out ∧ (filterSample cfg led r x).out ≤ 32767

/-- The LED flag selects an output and never touches the filter's state (R261, R266). -/
def Obligations.LedOnlySelectsTheOutput : Prop :=
  ∀ (cfg : Cfg) (r : FilterRec) (x : Int), (filterSample cfg true r x).record = (filterSample cfg false r x).record

/-- The integer input of the filter is exact in either format (R261): for `|x| < 2^24` the converted value is `x` itself, and
truncating it gives `x` back. -/
def Obligations.FilterInputIsExact : Prop :=
  ∀ (f : FpFormat) (x : Int), -(2 ^ 24) < x → x < 2 ^ 24 →
    (∃ (neg : Bool) (m : Nat) (e : Int), fpOfInt f x = .fin neg m e ∧ fpValue neg m e = x) ∧ fpTrunc (fpOfInt f x) = x

/-- The filter settings (R262, R263, R264, R265, R269), the LED selection (R266) and the conversion (R268): how each topology
updates its record and which of its two values the LED selects. Under A1200 `rc1` is neither written nor read, and with the
LED off the output is the input, saturated (R263). The order in which an expression is evaluated is log 17 (DEDUCED). -/
def Obligations.TopologiesFollowTheirRules : Prop :=
  (∀ (cfg : Cfg) (led : Bool) (r : FilterRec) (x : Int),
    let f := cfg.fp
    let xin := fpOfInt f x
    let rc : Fp → Fp → Fp → Fp := fun k u prev => fpAdd f (fpMul f k u) (fpMul f (fpSub f (fpOfInt f 1) k) prev)
    let boost : Fp → Fp → Fp := fun u prev =>
      fpSub f (fpMul f (fpOfRatio f false 135 100) u) (fpMul f (fpOfRatio f false 35 100) prev)
    let biquad : Biquad → BiquadCoefs → Fp → Fp := fun q k u =>
      fpSub f
        (fpSub f (fpAdd f (fpAdd f (fpMul f k.b0 u) (fpMul f k.b1 q.x0)) (fpMul f k.b2 q.x1)) (fpMul f k.a1 q.y0))
        (fpMul f k.a2 q.y1)
    let scale : Fp → Fp := fpMul f (fpOfRatio f false 98 100)
    let enhanced : EnhancedCoefs → Filtered := fun k =>
      let rc1 := rc k.ap xin r.rc1
      let u := biquad r.bq0 k.bq0 rc1
      let v := biquad r.bq1 k.bq1 u
      { record :=
          { r with
            rc1 := rc1
            bq0 := { x0 := rc1, x1 := r.bq0.x0, y0 := u, y1 := r.bq0.y0 }
            bq1 := { x0 := u, x1 := r.bq1.x0, y0 := v, y1 := r.bq1.y0 } }
        out := toOutput (if led then v else rc1) }
    filterSample cfg led r x =
      match cfg.filter with
      | .off => { record := r, out := min (max x (-32768)) 32767 }
      | .a500 =>
        let rc1 := rc cfg.coefs.a500a1 xin r.rc1
        let rc2 := rc cfg.coefs.a500a2 rc1 r.rc2
        let rc3 := boost rc2 r.rc3
        { record := { r with rc1 := rc1, rc2 := rc2, rc3 := rc3 }, out := toOutput (if led then scale rc3 else rc1) }
      | .a1200 =>
        let rc2 := rc cfg.coefs.a1200a2 xin r.rc2
        let rc3 := boost rc2 r.rc3
        { record := { r with rc2 := rc2, rc3 := rc3 }, out := toOutput (if led then scale rc3 else xin) }
      | .a500e => enhanced cfg.coefs.a500e
      | .a1200e => enhanced cfg.coefs.a1200e) ∧
  (toOutput .nan = 0 ∧ toOutput (.inf false) = 32767 ∧ toOutput (.inf true) = -32768) ∧
  (∀ (neg : Bool) (m : Nat) (e : Int),
    let o := toOutput (.fin neg m e)
    (32767 ≤ fpValue neg m e → o = 32767) ∧ (fpValue neg m e ≤ -32768 → o = -32768) ∧
    (0 ≤ fpValue neg m e → fpValue neg m e < 32767 → (o : ℚ) ≤ fpValue neg m e ∧ fpValue neg m e < o + 1) ∧
    (-32768 < fpValue neg m e → fpValue neg m e ≤ 0 → fpValue neg m e ≤ o ∧ (o : ℚ) - 1 < fpValue neg m e)) ∧
  (∀ (cfg : Cfg) (led : Bool) (r : FilterRec) (x : Int) (z : Fp), cfg.filter = .a1200 →
    filterSample cfg led { r with rc1 := z } x =
      { record := { (filterSample cfg led r x).record with rc1 := z }, out := (filterSample cfg led r x).out } ∧
    (-(2 ^ 24) < x → x < 2 ^ 24 → (filterSample cfg false r x).out = min (max x (-32768)) 32767))

/-- The two filter records are never shared (R49, R267): neither is read when the other is updated. -/
def Obligations.FilterSidesAreIndependent : Prop :=
  ∀ (s : State) (r : FilterRec),
    (sampleEvent { s with filterR := r }).filterL = (sampleEvent s).filterL ∧
    (sampleEvent { s with filterL := r }).filterR = (sampleEvent s).filterR

/-- Every operation rounds the exact value of its finite operands once, to nearest, ties to even, into the format (R11): the
rounding of an exact ratio, and through it conversion, addition, subtraction, multiplication and division. That an overflow
gives an infinity, that small values are rounded among the subnormals and the sign of an exact zero sum are IEEE 754's, read
into R11 (log 10, DEDUCED); conversion serves the coefficients (log 11, DESIGN CHOICE). -/
def Obligations.RoundingIsNearestEven : Prop :=
  (∀ n d : Nat, 0 < d →
    2 * ((n : Int) - d * roundHalfEven n d) ≤ d ∧ 2 * ((d : Int) * roundHalfEven n d - n) ≤ d ∧
      ((2 * ((n : Int) - d * roundHalfEven n d) = d ∨ 2 * ((d : Int) * roundHalfEven n d - n) = d) →
        roundHalfEven n d % 2 = 0)) ∧
  (∀ (f : FpFormat) (neg : Bool) (num den : Nat) (e : Int), 0 < den →
    rounds f neg ((num : ℚ) / den * 2 ^ e) (roundRatio f neg num den e)) ∧
  (∀ (f : FpFormat) (n : Int), rounds f (decide (n < 0)) |(n : ℚ)| (fpOfInt f n)) ∧
  (∀ (f : FpFormat) (neg : Bool) (num den : Nat), 0 < den → rounds f neg ((num : ℚ) / den) (fpOfRatio f neg num den)) ∧
  (∀ (f : FpFormat) (neg : Bool) (m : Nat) (e : Int), rounds f neg ((m : ℚ) * 2 ^ e) (fpConvert f (.fin neg m e))) ∧
  (∀ (f : FpFormat) (n1 n2 : Bool) (m1 m2 : Nat) (e1 e2 : Int),
    let a : Fp := .fin n1 m1 e1
    let b : Fp := .fin n2 m2 e2
    let sum := fpValue n1 m1 e1 + fpValue n2 m2 e2
    let dif := fpValue n1 m1 e1 - fpValue n2 m2 e2
    (sum ≠ 0 → rounds f (decide (sum < 0)) |sum| (fpAdd f a b)) ∧ (sum = 0 → fpAdd f a b = .fin (n1 && n2) 0 0) ∧
    (dif ≠ 0 → rounds f (decide (dif < 0)) |dif| (fpSub f a b)) ∧ (dif = 0 → fpSub f a b = .fin (n1 && !n2) 0 0) ∧
    rounds f (n1 != n2) ((m1 : ℚ) * 2 ^ e1 * (m2 * 2 ^ e2)) (fpMul f a b) ∧
    (m2 ≠ 0 → rounds f (n1 != n2) ((m1 : ℚ) * 2 ^ e1 / (m2 * 2 ^ e2)) (fpDiv f a b)))

/-- Frames (R280): big-endian two's-complement samples, left first in stereo, `(oL + oR) div 2` in mono. -/
def Obligations.FrameIsBigEndian : Prop :=
  ∀ oL oR : Int, -32768 ≤ oL → oL ≤ 32767 → -32768 ≤ oR → oR ≤ 32767 →
    (∃ l1 l0 r1 r0 : Byte, frame true oL oR = [l1, l0, r1, r0] ∧ (l1 ++ l0).toInt = oL ∧ (r1 ++ r0).toInt = oR) ∧
    (∃ m1 m0 : Byte, frame false oL oR = [m1, m0] ∧ (m1 ++ m0).toInt = Int.tdiv (oL + oR) 2)

/-- Filling and flushing (R281, R282): a frame is appended; when the fill reaches `min(BUF_BYTES, req)` exactly that many
bytes are emitted and taken off the request, and the block waits when the request is exhausted. -/
def Obligations.EmitCarriesExactlyTheChunk : Prop :=
  ∀ (s : State) (oL oR : Int), cfgInv s → pcmInv s → s.pcm.waitingRead = false →
    let bytes := s.pcm.buf ++ frame s.cfg.stereo oL oR
    let t := appendFrame oL oR s
    bytes.length ≤ min s.cfg.bufBytes s.pcm.req ∧
    (bytes.length < min s.cfg.bufBytes s.pcm.req → t = { s with pcm := { s.pcm with buf := bytes } }) ∧
    (bytes.length = min s.cfg.bufBytes s.pcm.req →
      t = { s with
            out := s.out ++ [.emit bytes]
            pcm := { buf := [], req := s.pcm.req - bytes.length, waitingRead := decide (s.pcm.req = bytes.length) } })

/-! ## The whole machine -/

/-- The block never writes the memory (R70): whatever command runs, every byte reads as before. That the inputs and the
sideband stay and what was sent only grows, through a RESET too, is the model's choice of its environment (log 1 and log 13,
DESIGN CHOICE). -/
def Obligations.NoCommandWritesMemory : Prop :=
  ∀ (i : Instr) (s t : State), exec i s = .next t →
    (∀ a : Nat, Memory.read t.mem a = Memory.read s.mem a) ∧ t.inputs = s.inputs ∧ t.now = s.now ∧ t.cfgIn = s.cfgIn ∧
      ∃ sent : List OutEvent, t.out = s.out ++ sent

/-- Memory is read only inside a LINE_SYNC (R77): any other command does the same over any memory. -/
def Obligations.OnlyLineSyncReadsMemory : Prop :=
  ∀ (i : Instr) (s t : State) (m : Memory), State.Inv s → i ≠ .lineSync → s.held ≠ some .lineSync →
    exec i s = .next t → exec i { s with mem := m } = .next { t with mem := m }

/-- A request bit falls only when the host clears it with an INTREQ write, or at RESET (R303); a READ can let a held INTREQ
write take effect. -/
def Obligations.RequestBitFallsOnlyByHost : Prop :=
  ∀ (i : Instr) (s t : State) (c : ChanIdx), exec i s = .next t → s.intreq.getLsbD c.val = true →
    t.intreq.getLsbD c.val = false →
      i = .reset ∨ ∃ data : Word, data.getLsbD 15 = false ∧ data.getLsbD (7 + c.val) = true ∧
        (i = .intreq data ∨ ((∃ n, i = .read n) ∧ s.held = some (.intreq data)))

/-- The state right after reset meets the invariant. It rests on the configuration the model chose for it (log 3). -/
def Obligations.ResetMeetsInvariant : Prop := State.Inv State.reset

/-- Every step keeps the invariant (R55 with R31, R45, R50, R51): in every state that meets it, not only in reached ones. -/
def Obligations.StepKeepsInvariant : Prop := ∀ s t : State, State.Inv s → step s = .next t → State.Inv t

/-- No step of a state that meets the invariant stops: the scheduler always progresses (R205), and no command is refused. -/
def Obligations.StepNeverStops : Prop := ∀ s : State, State.Inv s → ∃ t : State, step s = .next t
end

