-- ==== Sys2Proof/Laws/State.lean ====
section
/-! SUPPORT. One lemma for each field of State under each record update of the machine's operations, true by rfl, and the
access lemmas of the four channel records. -/

namespace Sys2Proof

@[simp] theorem Quad.get_set_self {α : Type} (q : Quad α) (c : ChanIdx) (a : α) : (q.set c a).get c = a := by
  fin_cases c <;> rfl

theorem Quad.get_set_of_ne {α : Type} (q : Quad α) {c d : ChanIdx} (a : α) (h : d ≠ c) : (q.set c a).get d = q.get d := by
  fin_cases c <;> fin_cases d <;> first | rfl | exact absurd rfl h

theorem Quad.get_set {α : Type} (q : Quad α) (c d : ChanIdx) (a : α) :
    (q.set c a).get d = if d = c then a else q.get d := by
  fin_cases c <;> fin_cases d <;> rfl

@[simp] theorem Quad.set_set {α : Type} (q : Quad α) (c : ChanIdx) (a b : α) : (q.set c a).set c b = q.set c b := by
  fin_cases c <;> rfl

@[simp] theorem Quad.set_get {α : Type} (q : Quad α) (c : ChanIdx) : q.set c (q.get c) = q := by
  fin_cases c <;> rfl

@[simp] theorem Quad.get_map {α β : Type} (f : α → β) (q : Quad α) (c : ChanIdx) : (q.map f).get c = f (q.get c) := by
  fin_cases c <;> rfl

theorem Quad.ext_get {α : Type} {p q : Quad α} (h : ∀ c : ChanIdx, p.get c = q.get c) : p = q := by
  have h0 : p.q0 = q.q0 := h 0
  have h1 : p.q1 = q.q1 := h 1
  have h2 : p.q2 = q.q2 := h 2
  have h3 : p.q3 = q.q3 := h 3
  cases p
  cases q
  simp_all

namespace Machine

@[simp] theorem modChan_chan_self (s : State) (c : ChanIdx) (f : Channel → Channel) :
    (s.modChan c f).chan c = f (s.chan c) := Quad.get_set_self _ _ _

theorem modChan_chan_of_ne (s : State) {c d : ChanIdx} (f : Channel → Channel) (h : d ≠ c) :
    (s.modChan c f).chan d = s.chan d := Quad.get_set_of_ne _ _ h

theorem modChan_chan (s : State) (c d : ChanIdx) (f : Channel → Channel) :
    (s.modChan c f).chan d = if d = c then f (s.chan c) else s.chan d := Quad.get_set _ _ _ _

@[simp] theorem raiseIrq_chan (s : State) (c d : ChanIdx) : (raiseIrq c s).chan d = s.chan d := rfl

@[simp] theorem send_chan (s : State) (e : OutEvent) (d : ChanIdx) : (send e s).chan d = s.chan d := rfl

@[simp] theorem elapse_chan (s : State) (n : Nat) (d : ChanIdx) : (elapse n s).chan d = elapseChannel n (s.chan d) :=
  Quad.get_map _ _ _

theorem modChan_modChan (s : State) (c : ChanIdx) (f g : Channel → Channel) :
    (s.modChan c f).modChan c g = s.modChan c (fun k => g (f k)) := by
  simp [State.modChan]

/-! modChan -/

@[simp] theorem modChan_ch (s : State) (c : ChanIdx) (f : Channel → Channel) :
    (s.modChan c f).ch = s.ch.set c (f (s.ch.get c)) := rfl

@[simp] theorem modChan_lastCycles (s : State) (c : ChanIdx) (f : Channel → Channel) :
    (s.modChan c f).lastCycles = s.lastCycles := rfl

@[simp] theorem modChan_pendingCycles (s : State) (c : ChanIdx) (f : Channel → Channel) :
    (s.modChan c f).pendingCycles = s.pendingCycles := rfl

@[simp] theorem modChan_held (s : State) (c : ChanIdx) (f : Channel → Channel) :
    (s.modChan c f).held = s.held := rfl

@[simp] theorem modChan_sampleEvtime (s : State) (c : ChanIdx) (f : Channel → Channel) :
    (s.modChan c f).sampleEvtime = s.sampleEvtime := rfl

@[simp] theorem modChan_nextSampleEvtime (s : State) (c : ChanIdx) (f : Channel → Channel) :
    (s.modChan c f).nextSampleEvtime = s.nextSampleEvtime := rfl

@[simp] theorem modChan_maxhpos (s : State) (c : ChanIdx) (f : Channel → Channel) :
    (s.modChan c f).maxhpos = s.maxhpos := rfl

@[simp] theorem modChan_adkcon (s : State) (c : ChanIdx) (f : Channel → Channel) :
    (s.modChan c f).adkcon = s.adkcon := rfl

@[simp] theorem modChan_dmacon (s : State) (c : ChanIdx) (f : Channel → Channel) :
    (s.modChan c f).dmacon = s.dmacon := rfl

@[simp] theorem modChan_intreq (s : State) (c : ChanIdx) (f : Channel → Channel) :
    (s.modChan c f).intreq = s.intreq := rfl

@[simp] theorem modChan_led (s : State) (c : ChanIdx) (f : Channel → Channel) :
    (s.modChan c f).led = s.led := rfl

@[simp] theorem modChan_filterL (s : State) (c : ChanIdx) (f : Channel → Channel) :
    (s.modChan c f).filterL = s.filterL := rfl

@[simp] theorem modChan_filterR (s : State) (c : ChanIdx) (f : Channel → Channel) :
    (s.modChan c f).filterR = s.filterR := rfl

@[simp] theorem modChan_pcm (s : State) (c : ChanIdx) (f : Channel → Channel) :
    (s.modChan c f).pcm = s.pcm := rfl

@[simp] theorem modChan_faulted (s : State) (c : ChanIdx) (f : Channel → Channel) :
    (s.modChan c f).faulted = s.faulted := rfl

@[simp] theorem modChan_faultReason (s : State) (c : ChanIdx) (f : Channel → Channel) :
    (s.modChan c f).faultReason = s.faultReason := rfl

@[simp] theorem modChan_defectSeen (s : State) (c : ChanIdx) (f : Channel → Channel) :
    (s.modChan c f).defectSeen = s.defectSeen := rfl

@[simp] theorem modChan_cfg (s : State) (c : ChanIdx) (f : Channel → Channel) :
    (s.modChan c f).cfg = s.cfg := rfl

@[simp] theorem modChan_awaitingReset (s : State) (c : ChanIdx) (f : Channel → Channel) :
    (s.modChan c f).awaitingReset = s.awaitingReset := rfl

@[simp] theorem modChan_mem (s : State) (c : ChanIdx) (f : Channel → Channel) :
    (s.modChan c f).mem = s.mem := rfl

@[simp] theorem modChan_inputs (s : State) (c : ChanIdx) (f : Channel → Channel) :
    (s.modChan c f).inputs = s.inputs := rfl

@[simp] theorem modChan_now (s : State) (c : ChanIdx) (f : Channel → Channel) :
    (s.modChan c f).now = s.now := rfl

@[simp] theorem modChan_cfgIn (s : State) (c : ChanIdx) (f : Channel → Channel) :
    (s.modChan c f).cfgIn = s.cfgIn := rfl

@[simp] theorem modChan_out (s : State) (c : ChanIdx) (f : Channel → Channel) :
    (s.modChan c f).out = s.out := rfl

/-! raiseIrq -/

@[simp] theorem raiseIrq_ch (s : State) (c : ChanIdx) :
    (raiseIrq c s).ch = s.ch := rfl

@[simp] theorem raiseIrq_lastCycles (s : State) (c : ChanIdx) :
    (raiseIrq c s).lastCycles = s.lastCycles := rfl

@[simp] theorem raiseIrq_pendingCycles (s : State) (c : ChanIdx) :
    (raiseIrq c s).pendingCycles = s.pendingCycles := rfl

@[simp] theorem raiseIrq_held (s : State) (c : ChanIdx) :
    (raiseIrq c s).held = s.held := rfl

@[simp] theorem raiseIrq_sampleEvtime (s : State) (c : ChanIdx) :
    (raiseIrq c s).sampleEvtime = s.sampleEvtime := rfl

@[simp] theorem raiseIrq_nextSampleEvtime (s : State) (c : ChanIdx) :
    (raiseIrq c s).nextSampleEvtime = s.nextSampleEvtime := rfl

@[simp] theorem raiseIrq_maxhpos (s : State) (c : ChanIdx) :
    (raiseIrq c s).maxhpos = s.maxhpos := rfl

@[simp] theorem raiseIrq_adkcon (s : State) (c : ChanIdx) :
    (raiseIrq c s).adkcon = s.adkcon := rfl

@[simp] theorem raiseIrq_dmacon (s : State) (c : ChanIdx) :
    (raiseIrq c s).dmacon = s.dmacon := rfl

@[simp] theorem raiseIrq_intreq (s : State) (c : ChanIdx) :
    (raiseIrq c s).intreq = s.intreq ||| (1#4 <<< c.val) := rfl

@[simp] theorem raiseIrq_led (s : State) (c : ChanIdx) :
    (raiseIrq c s).led = s.led := rfl

@[simp] theorem raiseIrq_filterL (s : State) (c : ChanIdx) :
    (raiseIrq c s).filterL = s.filterL := rfl

@[simp] theorem raiseIrq_filterR (s : State) (c : ChanIdx) :
    (raiseIrq c s).filterR = s.filterR := rfl

@[simp] theorem raiseIrq_pcm (s : State) (c : ChanIdx) :
    (raiseIrq c s).pcm = s.pcm := rfl

@[simp] theorem raiseIrq_faulted (s : State) (c : ChanIdx) :
    (raiseIrq c s).faulted = s.faulted := rfl

@[simp] theorem raiseIrq_faultReason (s : State) (c : ChanIdx) :
    (raiseIrq c s).faultReason = s.faultReason := rfl

@[simp] theorem raiseIrq_defectSeen (s : State) (c : ChanIdx) :
    (raiseIrq c s).defectSeen = s.defectSeen := rfl

@[simp] theorem raiseIrq_cfg (s : State) (c : ChanIdx) :
    (raiseIrq c s).cfg = s.cfg := rfl

@[simp] theorem raiseIrq_awaitingReset (s : State) (c : ChanIdx) :
    (raiseIrq c s).awaitingReset = s.awaitingReset := rfl

@[simp] theorem raiseIrq_mem (s : State) (c : ChanIdx) :
    (raiseIrq c s).mem = s.mem := rfl

@[simp] theorem raiseIrq_inputs (s : State) (c : ChanIdx) :
    (raiseIrq c s).inputs = s.inputs := rfl

@[simp] theorem raiseIrq_now (s : State) (c : ChanIdx) :
    (raiseIrq c s).now = s.now := rfl

@[simp] theorem raiseIrq_cfgIn (s : State) (c : ChanIdx) :
    (raiseIrq c s).cfgIn = s.cfgIn := rfl

@[simp] theorem raiseIrq_out (s : State) (c : ChanIdx) :
    (raiseIrq c s).out = s.out := rfl

/-! send -/

@[simp] theorem send_ch (s : State) (e : OutEvent) :
    (send e s).ch = s.ch := rfl

@[simp] theorem send_lastCycles (s : State) (e : OutEvent) :
    (send e s).lastCycles = s.lastCycles := rfl

@[simp] theorem send_pendingCycles (s : State) (e : OutEvent) :
    (send e s).pendingCycles = s.pendingCycles := rfl

@[simp] theorem send_held (s : State) (e : OutEvent) :
    (send e s).held = s.held := rfl

@[simp] theorem send_sampleEvtime (s : State) (e : OutEvent) :
    (send e s).sampleEvtime = s.sampleEvtime := rfl

@[simp] theorem send_nextSampleEvtime (s : State) (e : OutEvent) :
    (send e s).nextSampleEvtime = s.nextSampleEvtime := rfl

@[simp] theorem send_maxhpos (s : State) (e : OutEvent) :
    (send e s).maxhpos = s.maxhpos := rfl

@[simp] theorem send_adkcon (s : State) (e : OutEvent) :
    (send e s).adkcon = s.adkcon := rfl

@[simp] theorem send_dmacon (s : State) (e : OutEvent) :
    (send e s).dmacon = s.dmacon := rfl

@[simp] theorem send_intreq (s : State) (e : OutEvent) :
    (send e s).intreq = s.intreq := rfl

@[simp] theorem send_led (s : State) (e : OutEvent) :
    (send e s).led = s.led := rfl

@[simp] theorem send_filterL (s : State) (e : OutEvent) :
    (send e s).filterL = s.filterL := rfl

@[simp] theorem send_filterR (s : State) (e : OutEvent) :
    (send e s).filterR = s.filterR := rfl

@[simp] theorem send_pcm (s : State) (e : OutEvent) :
    (send e s).pcm = s.pcm := rfl

@[simp] theorem send_faulted (s : State) (e : OutEvent) :
    (send e s).faulted = s.faulted := rfl

@[simp] theorem send_faultReason (s : State) (e : OutEvent) :
    (send e s).faultReason = s.faultReason := rfl

@[simp] theorem send_defectSeen (s : State) (e : OutEvent) :
    (send e s).defectSeen = s.defectSeen := rfl

@[simp] theorem send_cfg (s : State) (e : OutEvent) :
    (send e s).cfg = s.cfg := rfl

@[simp] theorem send_awaitingReset (s : State) (e : OutEvent) :
    (send e s).awaitingReset = s.awaitingReset := rfl

@[simp] theorem send_mem (s : State) (e : OutEvent) :
    (send e s).mem = s.mem := rfl

@[simp] theorem send_inputs (s : State) (e : OutEvent) :
    (send e s).inputs = s.inputs := rfl

@[simp] theorem send_now (s : State) (e : OutEvent) :
    (send e s).now = s.now := rfl

@[simp] theorem send_cfgIn (s : State) (e : OutEvent) :
    (send e s).cfgIn = s.cfgIn := rfl

@[simp] theorem send_out (s : State) (e : OutEvent) :
    (send e s).out = s.out ++ [e] := rfl

/-! takeFault -/

@[simp] theorem takeFault_ch (s : State) (r : FaultReason) :
    (takeFault r s).ch = s.ch := rfl

@[simp] theorem takeFault_lastCycles (s : State) (r : FaultReason) :
    (takeFault r s).lastCycles = s.lastCycles := rfl

@[simp] theorem takeFault_pendingCycles (s : State) (r : FaultReason) :
    (takeFault r s).pendingCycles = s.pendingCycles := rfl

@[simp] theorem takeFault_held (s : State) (r : FaultReason) :
    (takeFault r s).held = s.held := rfl

@[simp] theorem takeFault_sampleEvtime (s : State) (r : FaultReason) :
    (takeFault r s).sampleEvtime = s.sampleEvtime := rfl

@[simp] theorem takeFault_nextSampleEvtime (s : State) (r : FaultReason) :
    (takeFault r s).nextSampleEvtime = s.nextSampleEvtime := rfl

@[simp] theorem takeFault_maxhpos (s : State) (r : FaultReason) :
    (takeFault r s).maxhpos = s.maxhpos := rfl

@[simp] theorem takeFault_adkcon (s : State) (r : FaultReason) :
    (takeFault r s).adkcon = s.adkcon := rfl

@[simp] theorem takeFault_dmacon (s : State) (r : FaultReason) :
    (takeFault r s).dmacon = s.dmacon := rfl

@[simp] theorem takeFault_intreq (s : State) (r : FaultReason) :
    (takeFault r s).intreq = s.intreq := rfl

@[simp] theorem takeFault_led (s : State) (r : FaultReason) :
    (takeFault r s).led = s.led := rfl

@[simp] theorem takeFault_filterL (s : State) (r : FaultReason) :
    (takeFault r s).filterL = s.filterL := rfl

@[simp] theorem takeFault_filterR (s : State) (r : FaultReason) :
    (takeFault r s).filterR = s.filterR := rfl

@[simp] theorem takeFault_pcm (s : State) (r : FaultReason) :
    (takeFault r s).pcm = s.pcm := rfl

@[simp] theorem takeFault_faulted (s : State) (r : FaultReason) :
    (takeFault r s).faulted = true := rfl

@[simp] theorem takeFault_faultReason (s : State) (r : FaultReason) :
    (takeFault r s).faultReason = some r := rfl

@[simp] theorem takeFault_defectSeen (s : State) (r : FaultReason) :
    (takeFault r s).defectSeen = s.defectSeen := rfl

@[simp] theorem takeFault_cfg (s : State) (r : FaultReason) :
    (takeFault r s).cfg = s.cfg := rfl

@[simp] theorem takeFault_awaitingReset (s : State) (r : FaultReason) :
    (takeFault r s).awaitingReset = s.awaitingReset := rfl

@[simp] theorem takeFault_mem (s : State) (r : FaultReason) :
    (takeFault r s).mem = s.mem := rfl

@[simp] theorem takeFault_inputs (s : State) (r : FaultReason) :
    (takeFault r s).inputs = s.inputs := rfl

@[simp] theorem takeFault_now (s : State) (r : FaultReason) :
    (takeFault r s).now = s.now := rfl

@[simp] theorem takeFault_cfgIn (s : State) (r : FaultReason) :
    (takeFault r s).cfgIn = s.cfgIn := rfl

@[simp] theorem takeFault_out (s : State) (r : FaultReason) :
    (takeFault r s).out = s.out := rfl

/-! arm -/

@[simp] theorem arm_ch (s : State) (i : Instr) :
    (arm i s).ch = s.ch := rfl

@[simp] theorem arm_lastCycles (s : State) (i : Instr) :
    (arm i s).lastCycles = s.now := rfl

@[simp] theorem arm_pendingCycles (s : State) (i : Instr) :
    (arm i s).pendingCycles = s.pendingCycles + (s.now - s.lastCycles) := rfl

@[simp] theorem arm_held (s : State) (i : Instr) :
    (arm i s).held = some i := rfl

@[simp] theorem arm_sampleEvtime (s : State) (i : Instr) :
    (arm i s).sampleEvtime = s.sampleEvtime := rfl

@[simp] theorem arm_nextSampleEvtime (s : State) (i : Instr) :
    (arm i s).nextSampleEvtime = s.nextSampleEvtime := rfl

@[simp] theorem arm_maxhpos (s : State) (i : Instr) :
    (arm i s).maxhpos = s.maxhpos := rfl

@[simp] theorem arm_adkcon (s : State) (i : Instr) :
    (arm i s).adkcon = s.adkcon := rfl

@[simp] theorem arm_dmacon (s : State) (i : Instr) :
    (arm i s).dmacon = s.dmacon := rfl

@[simp] theorem arm_intreq (s : State) (i : Instr) :
    (arm i s).intreq = s.intreq := rfl

@[simp] theorem arm_led (s : State) (i : Instr) :
    (arm i s).led = s.led := rfl

@[simp] theorem arm_filterL (s : State) (i : Instr) :
    (arm i s).filterL = s.filterL := rfl

@[simp] theorem arm_filterR (s : State) (i : Instr) :
    (arm i s).filterR = s.filterR := rfl

@[simp] theorem arm_pcm (s : State) (i : Instr) :
    (arm i s).pcm = s.pcm := rfl

@[simp] theorem arm_faulted (s : State) (i : Instr) :
    (arm i s).faulted = s.faulted := rfl

@[simp] theorem arm_faultReason (s : State) (i : Instr) :
    (arm i s).faultReason = s.faultReason := rfl

@[simp] theorem arm_defectSeen (s : State) (i : Instr) :
    (arm i s).defectSeen = s.defectSeen := rfl

@[simp] theorem arm_cfg (s : State) (i : Instr) :
    (arm i s).cfg = s.cfg := rfl

@[simp] theorem arm_awaitingReset (s : State) (i : Instr) :
    (arm i s).awaitingReset = s.awaitingReset := rfl

@[simp] theorem arm_mem (s : State) (i : Instr) :
    (arm i s).mem = s.mem := rfl

@[simp] theorem arm_inputs (s : State) (i : Instr) :
    (arm i s).inputs = s.inputs := rfl

@[simp] theorem arm_now (s : State) (i : Instr) :
    (arm i s).now = s.now := rfl

@[simp] theorem arm_cfgIn (s : State) (i : Instr) :
    (arm i s).cfgIn = s.cfgIn := rfl

@[simp] theorem arm_out (s : State) (i : Instr) :
    (arm i s).out = s.out := rfl

/-! elapse -/

@[simp] theorem elapse_ch (s : State) (n : Nat) :
    (elapse n s).ch = s.ch.map (elapseChannel n) := rfl

@[simp] theorem elapse_lastCycles (s : State) (n : Nat) :
    (elapse n s).lastCycles = s.lastCycles := rfl

@[simp] theorem elapse_pendingCycles (s : State) (n : Nat) :
    (elapse n s).pendingCycles = BitVec.ofNat 64 (s.pendingCycles.toNat - n) := rfl

@[simp] theorem elapse_held (s : State) (n : Nat) :
    (elapse n s).held = s.held := rfl

@[simp] theorem elapse_sampleEvtime (s : State) (n : Nat) :
    (elapse n s).sampleEvtime = s.sampleEvtime := rfl

@[simp] theorem elapse_nextSampleEvtime (s : State) (n : Nat) :
    (elapse n s).nextSampleEvtime = BitVec.ofNat 28 (s.nextSampleEvtime.toNat - n) := rfl

@[simp] theorem elapse_maxhpos (s : State) (n : Nat) :
    (elapse n s).maxhpos = s.maxhpos := rfl

@[simp] theorem elapse_adkcon (s : State) (n : Nat) :
    (elapse n s).adkcon = s.adkcon := rfl

@[simp] theorem elapse_dmacon (s : State) (n : Nat) :
    (elapse n s).dmacon = s.dmacon := rfl

@[simp] theorem elapse_intreq (s : State) (n : Nat) :
    (elapse n s).intreq = s.intreq := rfl

@[simp] theorem elapse_led (s : State) (n : Nat) :
    (elapse n s).led = s.led := rfl

@[simp] theorem elapse_filterL (s : State) (n : Nat) :
    (elapse n s).filterL = s.filterL := rfl

@[simp] theorem elapse_filterR (s : State) (n : Nat) :
    (elapse n s).filterR = s.filterR := rfl

@[simp] theorem elapse_pcm (s : State) (n : Nat) :
    (elapse n s).pcm = s.pcm := rfl

@[simp] theorem elapse_faulted (s : State) (n : Nat) :
    (elapse n s).faulted = s.faulted := rfl

@[simp] theorem elapse_faultReason (s : State) (n : Nat) :
    (elapse n s).faultReason = s.faultReason := rfl

@[simp] theorem elapse_defectSeen (s : State) (n : Nat) :
    (elapse n s).defectSeen = s.defectSeen := rfl

@[simp] theorem elapse_cfg (s : State) (n : Nat) :
    (elapse n s).cfg = s.cfg := rfl

@[simp] theorem elapse_awaitingReset (s : State) (n : Nat) :
    (elapse n s).awaitingReset = s.awaitingReset := rfl

@[simp] theorem elapse_mem (s : State) (n : Nat) :
    (elapse n s).mem = s.mem := rfl

@[simp] theorem elapse_inputs (s : State) (n : Nat) :
    (elapse n s).inputs = s.inputs := rfl

@[simp] theorem elapse_now (s : State) (n : Nat) :
    (elapse n s).now = s.now := rfl

@[simp] theorem elapse_cfgIn (s : State) (n : Nat) :
    (elapse n s).cfgIn = s.cfgIn := rfl

@[simp] theorem elapse_out (s : State) (n : Nat) :
    (elapse n s).out = s.out := rfl

/-! acceptRead -/

@[simp] theorem acceptRead_ch (s : State) (n : Nat) :
    (acceptRead n s).ch = s.ch := rfl

@[simp] theorem acceptRead_lastCycles (s : State) (n : Nat) :
    (acceptRead n s).lastCycles = s.lastCycles := rfl

@[simp] theorem acceptRead_pendingCycles (s : State) (n : Nat) :
    (acceptRead n s).pendingCycles = s.pendingCycles := rfl

@[simp] theorem acceptRead_held (s : State) (n : Nat) :
    (acceptRead n s).held = s.held := rfl

@[simp] theorem acceptRead_sampleEvtime (s : State) (n : Nat) :
    (acceptRead n s).sampleEvtime = s.sampleEvtime := rfl

@[simp] theorem acceptRead_nextSampleEvtime (s : State) (n : Nat) :
    (acceptRead n s).nextSampleEvtime = s.nextSampleEvtime := rfl

@[simp] theorem acceptRead_maxhpos (s : State) (n : Nat) :
    (acceptRead n s).maxhpos = s.maxhpos := rfl

@[simp] theorem acceptRead_adkcon (s : State) (n : Nat) :
    (acceptRead n s).adkcon = s.adkcon := rfl

@[simp] theorem acceptRead_dmacon (s : State) (n : Nat) :
    (acceptRead n s).dmacon = s.dmacon := rfl

@[simp] theorem acceptRead_intreq (s : State) (n : Nat) :
    (acceptRead n s).intreq = s.intreq := rfl

@[simp] theorem acceptRead_led (s : State) (n : Nat) :
    (acceptRead n s).led = s.led := rfl

@[simp] theorem acceptRead_filterL (s : State) (n : Nat) :
    (acceptRead n s).filterL = s.filterL := rfl

@[simp] theorem acceptRead_filterR (s : State) (n : Nat) :
    (acceptRead n s).filterR = s.filterR := rfl

@[simp] theorem acceptRead_pcm (s : State) (n : Nat) :
    (acceptRead n s).pcm = { s.pcm with req := n, waitingRead := false } := rfl

@[simp] theorem acceptRead_faulted (s : State) (n : Nat) :
    (acceptRead n s).faulted = s.faulted := rfl

@[simp] theorem acceptRead_faultReason (s : State) (n : Nat) :
    (acceptRead n s).faultReason = s.faultReason := rfl

@[simp] theorem acceptRead_defectSeen (s : State) (n : Nat) :
    (acceptRead n s).defectSeen = s.defectSeen := rfl

@[simp] theorem acceptRead_cfg (s : State) (n : Nat) :
    (acceptRead n s).cfg = s.cfg := rfl

@[simp] theorem acceptRead_awaitingReset (s : State) (n : Nat) :
    (acceptRead n s).awaitingReset = s.awaitingReset := rfl

@[simp] theorem acceptRead_mem (s : State) (n : Nat) :
    (acceptRead n s).mem = s.mem := rfl

@[simp] theorem acceptRead_inputs (s : State) (n : Nat) :
    (acceptRead n s).inputs = s.inputs := rfl

@[simp] theorem acceptRead_now (s : State) (n : Nat) :
    (acceptRead n s).now = s.now := rfl

@[simp] theorem acceptRead_cfgIn (s : State) (n : Nat) :
    (acceptRead n s).cfgIn = s.cfgIn := rfl

@[simp] theorem acceptRead_out (s : State) (n : Nat) :
    (acceptRead n s).out = s.out := rfl

/-! afterReset -/

@[simp] theorem afterReset_ch (s : State) (t : BitVec 64) (cfg : Cfg) :
    (afterReset t cfg s).ch = { q0 := Channel.reset, q1 := Channel.reset, q2 := Channel.reset, q3 := Channel.reset } := rfl

@[simp] theorem afterReset_lastCycles (s : State) (t : BitVec 64) (cfg : Cfg) :
    (afterReset t cfg s).lastCycles = t := rfl

@[simp] theorem afterReset_pendingCycles (s : State) (t : BitVec 64) (cfg : Cfg) :
    (afterReset t cfg s).pendingCycles = 0 := rfl

@[simp] theorem afterReset_held (s : State) (t : BitVec 64) (cfg : Cfg) :
    (afterReset t cfg s).held = none := rfl

@[simp] theorem afterReset_sampleEvtime (s : State) (t : BitVec 64) (cfg : Cfg) :
    (afterReset t cfg s).sampleEvtime = cfg.sampleEvtime := rfl

@[simp] theorem afterReset_nextSampleEvtime (s : State) (t : BitVec 64) (cfg : Cfg) :
    (afterReset t cfg s).nextSampleEvtime = cfg.sampleEvtime := rfl

@[simp] theorem afterReset_maxhpos (s : State) (t : BitVec 64) (cfg : Cfg) :
    (afterReset t cfg s).maxhpos = cfg.maxhpos := rfl

@[simp] theorem afterReset_adkcon (s : State) (t : BitVec 64) (cfg : Cfg) :
    (afterReset t cfg s).adkcon = 0 := rfl

@[simp] theorem afterReset_dmacon (s : State) (t : BitVec 64) (cfg : Cfg) :
    (afterReset t cfg s).dmacon = 0 := rfl

@[simp] theorem afterReset_intreq (s : State) (t : BitVec 64) (cfg : Cfg) :
    (afterReset t cfg s).intreq = 0 := rfl

@[simp] theorem afterReset_led (s : State) (t : BitVec 64) (cfg : Cfg) :
    (afterReset t cfg s).led = false := rfl

@[simp] theorem afterReset_filterL (s : State) (t : BitVec 64) (cfg : Cfg) :
    (afterReset t cfg s).filterL = FilterRec.reset := rfl

@[simp] theorem afterReset_filterR (s : State) (t : BitVec 64) (cfg : Cfg) :
    (afterReset t cfg s).filterR = FilterRec.reset := rfl

@[simp] theorem afterReset_pcm (s : State) (t : BitVec 64) (cfg : Cfg) :
    (afterReset t cfg s).pcm = PcmBuffer.reset := rfl

@[simp] theorem afterReset_faulted (s : State) (t : BitVec 64) (cfg : Cfg) :
    (afterReset t cfg s).faulted = false := rfl

@[simp] theorem afterReset_faultReason (s : State) (t : BitVec 64) (cfg : Cfg) :
    (afterReset t cfg s).faultReason = none := rfl

@[simp] theorem afterReset_defectSeen (s : State) (t : BitVec 64) (cfg : Cfg) :
    (afterReset t cfg s).defectSeen = false := rfl

@[simp] theorem afterReset_cfg (s : State) (t : BitVec 64) (cfg : Cfg) :
    (afterReset t cfg s).cfg = cfg := rfl

@[simp] theorem afterReset_awaitingReset (s : State) (t : BitVec 64) (cfg : Cfg) :
    (afterReset t cfg s).awaitingReset = false := rfl

@[simp] theorem afterReset_mem (s : State) (t : BitVec 64) (cfg : Cfg) :
    (afterReset t cfg s).mem = s.mem := rfl

@[simp] theorem afterReset_inputs (s : State) (t : BitVec 64) (cfg : Cfg) :
    (afterReset t cfg s).inputs = s.inputs := rfl

@[simp] theorem afterReset_now (s : State) (t : BitVec 64) (cfg : Cfg) :
    (afterReset t cfg s).now = s.now := rfl

@[simp] theorem afterReset_cfgIn (s : State) (t : BitVec 64) (cfg : Cfg) :
    (afterReset t cfg s).cfgIn = s.cfgIn := rfl

@[simp] theorem afterReset_out (s : State) (t : BitVec 64) (cfg : Cfg) :
    (afterReset t cfg s).out = s.out := rfl

/-! effectDmacon -/

@[simp] theorem effectDmacon_ch (s : State) (d : Word) :
    (effectDmacon d s).ch = s.ch := rfl

@[simp] theorem effectDmacon_lastCycles (s : State) (d : Word) :
    (effectDmacon d s).lastCycles = s.lastCycles := rfl

@[simp] theorem effectDmacon_pendingCycles (s : State) (d : Word) :
    (effectDmacon d s).pendingCycles = s.pendingCycles := rfl

@[simp] theorem effectDmacon_held (s : State) (d : Word) :
    (effectDmacon d s).held = s.held := rfl

@[simp] theorem effectDmacon_sampleEvtime (s : State) (d : Word) :
    (effectDmacon d s).sampleEvtime = s.sampleEvtime := rfl

@[simp] theorem effectDmacon_nextSampleEvtime (s : State) (d : Word) :
    (effectDmacon d s).nextSampleEvtime = s.nextSampleEvtime := rfl

@[simp] theorem effectDmacon_maxhpos (s : State) (d : Word) :
    (effectDmacon d s).maxhpos = s.maxhpos := rfl

@[simp] theorem effectDmacon_adkcon (s : State) (d : Word) :
    (effectDmacon d s).adkcon = s.adkcon := rfl

@[simp] theorem effectDmacon_dmacon (s : State) (d : Word) :
    (effectDmacon d s).dmacon = setClr s.dmacon (d.extractLsb' 0 15) (d.getLsbD 15) := rfl

@[simp] theorem effectDmacon_intreq (s : State) (d : Word) :
    (effectDmacon d s).intreq = s.intreq := rfl

@[simp] theorem effectDmacon_led (s : State) (d : Word) :
    (effectDmacon d s).led = s.led := rfl

@[simp] theorem effectDmacon_filterL (s : State) (d : Word) :
    (effectDmacon d s).filterL = s.filterL := rfl

@[simp] theorem effectDmacon_filterR (s : State) (d : Word) :
    (effectDmacon d s).filterR = s.filterR := rfl

@[simp] theorem effectDmacon_pcm (s : State) (d : Word) :
    (effectDmacon d s).pcm = s.pcm := rfl

@[simp] theorem effectDmacon_faulted (s : State) (d : Word) :
    (effectDmacon d s).faulted = s.faulted := rfl

@[simp] theorem effectDmacon_faultReason (s : State) (d : Word) :
    (effectDmacon d s).faultReason = s.faultReason := rfl

@[simp] theorem effectDmacon_defectSeen (s : State) (d : Word) :
    (effectDmacon d s).defectSeen = s.defectSeen := rfl

@[simp] theorem effectDmacon_cfg (s : State) (d : Word) :
    (effectDmacon d s).cfg = s.cfg := rfl

@[simp] theorem effectDmacon_awaitingReset (s : State) (d : Word) :
    (effectDmacon d s).awaitingReset = s.awaitingReset := rfl

@[simp] theorem effectDmacon_mem (s : State) (d : Word) :
    (effectDmacon d s).mem = s.mem := rfl

@[simp] theorem effectDmacon_inputs (s : State) (d : Word) :
    (effectDmacon d s).inputs = s.inputs := rfl

@[simp] theorem effectDmacon_now (s : State) (d : Word) :
    (effectDmacon d s).now = s.now := rfl

@[simp] theorem effectDmacon_cfgIn (s : State) (d : Word) :
    (effectDmacon d s).cfgIn = s.cfgIn := rfl

@[simp] theorem effectDmacon_out (s : State) (d : Word) :
    (effectDmacon d s).out = s.out := rfl

/-! effectIntreq -/

@[simp] theorem effectIntreq_ch (s : State) (d : Word) :
    (effectIntreq d s).ch = s.ch := rfl

@[simp] theorem effectIntreq_lastCycles (s : State) (d : Word) :
    (effectIntreq d s).lastCycles = s.lastCycles := rfl

@[simp] theorem effectIntreq_pendingCycles (s : State) (d : Word) :
    (effectIntreq d s).pendingCycles = s.pendingCycles := rfl

@[simp] theorem effectIntreq_held (s : State) (d : Word) :
    (effectIntreq d s).held = s.held := rfl

@[simp] theorem effectIntreq_sampleEvtime (s : State) (d : Word) :
    (effectIntreq d s).sampleEvtime = s.sampleEvtime := rfl

@[simp] theorem effectIntreq_nextSampleEvtime (s : State) (d : Word) :
    (effectIntreq d s).nextSampleEvtime = s.nextSampleEvtime := rfl

@[simp] theorem effectIntreq_maxhpos (s : State) (d : Word) :
    (effectIntreq d s).maxhpos = s.maxhpos := rfl

@[simp] theorem effectIntreq_adkcon (s : State) (d : Word) :
    (effectIntreq d s).adkcon = s.adkcon := rfl

@[simp] theorem effectIntreq_dmacon (s : State) (d : Word) :
    (effectIntreq d s).dmacon = s.dmacon := rfl

@[simp] theorem effectIntreq_intreq (s : State) (d : Word) :
    (effectIntreq d s).intreq = setClr s.intreq (d.extractLsb' 7 4) (d.getLsbD 15) := rfl

@[simp] theorem effectIntreq_led (s : State) (d : Word) :
    (effectIntreq d s).led = s.led := rfl

@[simp] theorem effectIntreq_filterL (s : State) (d : Word) :
    (effectIntreq d s).filterL = s.filterL := rfl

@[simp] theorem effectIntreq_filterR (s : State) (d : Word) :
    (effectIntreq d s).filterR = s.filterR := rfl

@[simp] theorem effectIntreq_pcm (s : State) (d : Word) :
    (effectIntreq d s).pcm = s.pcm := rfl

@[simp] theorem effectIntreq_faulted (s : State) (d : Word) :
    (effectIntreq d s).faulted = s.faulted := rfl

@[simp] theorem effectIntreq_faultReason (s : State) (d : Word) :
    (effectIntreq d s).faultReason = s.faultReason := rfl

@[simp] theorem effectIntreq_defectSeen (s : State) (d : Word) :
    (effectIntreq d s).defectSeen = s.defectSeen := rfl

@[simp] theorem effectIntreq_cfg (s : State) (d : Word) :
    (effectIntreq d s).cfg = s.cfg := rfl

@[simp] theorem effectIntreq_awaitingReset (s : State) (d : Word) :
    (effectIntreq d s).awaitingReset = s.awaitingReset := rfl

@[simp] theorem effectIntreq_mem (s : State) (d : Word) :
    (effectIntreq d s).mem = s.mem := rfl

@[simp] theorem effectIntreq_inputs (s : State) (d : Word) :
    (effectIntreq d s).inputs = s.inputs := rfl

@[simp] theorem effectIntreq_now (s : State) (d : Word) :
    (effectIntreq d s).now = s.now := rfl

@[simp] theorem effectIntreq_cfgIn (s : State) (d : Word) :
    (effectIntreq d s).cfgIn = s.cfgIn := rfl

@[simp] theorem effectIntreq_out (s : State) (d : Word) :
    (effectIntreq d s).out = s.out := rfl

/-! effectAdkcon -/

@[simp] theorem effectAdkcon_ch (s : State) (d : Word) :
    (effectAdkcon d s).ch = recomputeMasks (setClr s.adkcon (d.extractLsb' 0 15) (d.getLsbD 15)) s.ch := rfl

@[simp] theorem effectAdkcon_lastCycles (s : State) (d : Word) :
    (effectAdkcon d s).lastCycles = s.lastCycles := rfl

@[simp] theorem effectAdkcon_pendingCycles (s : State) (d : Word) :
    (effectAdkcon d s).pendingCycles = s.pendingCycles := rfl

@[simp] theorem effectAdkcon_held (s : State) (d : Word) :
    (effectAdkcon d s).held = s.held := rfl

@[simp] theorem effectAdkcon_sampleEvtime (s : State) (d : Word) :
    (effectAdkcon d s).sampleEvtime = s.sampleEvtime := rfl

@[simp] theorem effectAdkcon_nextSampleEvtime (s : State) (d : Word) :
    (effectAdkcon d s).nextSampleEvtime = s.nextSampleEvtime := rfl

@[simp] theorem effectAdkcon_maxhpos (s : State) (d : Word) :
    (effectAdkcon d s).maxhpos = s.maxhpos := rfl

@[simp] theorem effectAdkcon_adkcon (s : State) (d : Word) :
    (effectAdkcon d s).adkcon = setClr s.adkcon (d.extractLsb' 0 15) (d.getLsbD 15) := rfl

@[simp] theorem effectAdkcon_dmacon (s : State) (d : Word) :
    (effectAdkcon d s).dmacon = s.dmacon := rfl

@[simp] theorem effectAdkcon_intreq (s : State) (d : Word) :
    (effectAdkcon d s).intreq = s.intreq := rfl

@[simp] theorem effectAdkcon_led (s : State) (d : Word) :
    (effectAdkcon d s).led = s.led := rfl

@[simp] theorem effectAdkcon_filterL (s : State) (d : Word) :
    (effectAdkcon d s).filterL = s.filterL := rfl

@[simp] theorem effectAdkcon_filterR (s : State) (d : Word) :
    (effectAdkcon d s).filterR = s.filterR := rfl

@[simp] theorem effectAdkcon_pcm (s : State) (d : Word) :
    (effectAdkcon d s).pcm = s.pcm := rfl

@[simp] theorem effectAdkcon_faulted (s : State) (d : Word) :
    (effectAdkcon d s).faulted = s.faulted := rfl

@[simp] theorem effectAdkcon_faultReason (s : State) (d : Word) :
    (effectAdkcon d s).faultReason = s.faultReason := rfl

@[simp] theorem effectAdkcon_defectSeen (s : State) (d : Word) :
    (effectAdkcon d s).defectSeen = s.defectSeen := rfl

@[simp] theorem effectAdkcon_cfg (s : State) (d : Word) :
    (effectAdkcon d s).cfg = s.cfg := rfl

@[simp] theorem effectAdkcon_awaitingReset (s : State) (d : Word) :
    (effectAdkcon d s).awaitingReset = s.awaitingReset := rfl

@[simp] theorem effectAdkcon_mem (s : State) (d : Word) :
    (effectAdkcon d s).mem = s.mem := rfl

@[simp] theorem effectAdkcon_inputs (s : State) (d : Word) :
    (effectAdkcon d s).inputs = s.inputs := rfl

@[simp] theorem effectAdkcon_now (s : State) (d : Word) :
    (effectAdkcon d s).now = s.now := rfl

@[simp] theorem effectAdkcon_cfgIn (s : State) (d : Word) :
    (effectAdkcon d s).cfgIn = s.cfgIn := rfl

@[simp] theorem effectAdkcon_out (s : State) (d : Word) :
    (effectAdkcon d s).out = s.out := rfl

end Machine
end Sys2Proof
end

