-- ==== Sys2Proof/Laws/Frames.lean ====
section
/-! SUPPORT. What each shared operation of the channel machine and the scheduler can change, said once for each: the
handlers and line services change channel records, request bits and the defect bit; an iteration also changes the
countdowns, the filters, the buffer and what was sent. -/

namespace Sys2Proof.Machine

/-- `t` is `s` but for the channel records, the request bits and the defect bit. -/
def ChanFrame (s t : State) : Prop :=
  ∃ (q : Quad Channel) (i : BitVec 4) (d : Bool), t = { s with ch := q, intreq := i, defectSeen := d }

theorem ChanFrame.refl (s : State) : ChanFrame s s := ⟨s.ch, s.intreq, s.defectSeen, rfl⟩

theorem ChanFrame.trans {s t u : State} (h : ChanFrame s t) (h' : ChanFrame t u) : ChanFrame s u := by
  obtain ⟨_, _, _, rfl⟩ := h
  obtain ⟨q, i, d, rfl⟩ := h'
  exact ⟨q, i, d, rfl⟩

theorem modChan_frame (s : State) (c : ChanIdx) (f : Channel → Channel) : ChanFrame s (s.modChan c f) :=
  ⟨_, s.intreq, s.defectSeen, rfl⟩

theorem raiseIrq_frame (c : ChanIdx) (s : State) : ChanFrame s (raiseIrq c s) := ⟨s.ch, _, s.defectSeen, rfl⟩

theorem raiseIrqIf_frame (b : Bool) (c : ChanIdx) (s : State) : ChanFrame s (raiseIrqIf b c s) := by
  unfold raiseIrqIf
  split
  · exact raiseIrq_frame c s
  · exact .refl s

@[simp] theorem raiseIrqIf_chan (b : Bool) (c d : ChanIdx) (s : State) : (raiseIrqIf b c s).chan d = s.chan d := by
  unfold raiseIrqIf
  split <;> rfl

theorem attachPer_frame (c : ChanIdx) (v : Word) (s : State) : ChanFrame s (attachPer c v s) := by
  unfold attachPer
  split
  · exact modChan_frame s 1 _
  · exact modChan_frame s 2 _
  · exact modChan_frame s 3 _
  · exact .refl s

theorem attachVol_frame (c : ChanIdx) (v : Word) (s : State) : ChanFrame s (attachVol c v s) := by
  unfold attachVol
  split
  · exact modChan_frame s 1 _
  · exact modChan_frame s 2 _
  · exact modChan_frame s 3 _
  · exact .refl s

theorem handler1_frame (c : ChanIdx) (s : State) : ChanFrame s (handler1 c s) :=
  (raiseIrq_frame c s).trans (modChan_frame _ c _)

theorem handler5_frame (c : ChanIdx) (s : State) : ChanFrame s (handler5 c s) := modChan_frame s c _

theorem periodAttach_frame (c : ChanIdx) (s : State) : ChanFrame s (periodAttach c s) :=
  ((raiseIrqIf_frame _ c s).trans (modChan_frame _ c _)).trans (attachPer_frame c _ _)

theorem handler2_frame (c : ChanIdx) (s : State) : ChanFrame s (handler2 c s) := by
  have h : ChanFrame s (advance2 c s) := modChan_frame s c _
  unfold handler2
  split
  · exact h.trans (periodAttach_frame c _)
  · exact h

theorem handler3_frame (c : ChanIdx) (s : State) : ChanFrame s (handler3 c s) := by
  have h : ChanFrame s ((raiseIrqIf (irq3 s c) c s).modChan c (continueChannel s c)) :=
    (raiseIrqIf_frame _ c s).trans (modChan_frame _ c _)
  unfold handler3
  split
  · exact modChan_frame s c _
  · dsimp only
    split
    · exact h.trans (attachVol_frame c _ _)
    · exact h

theorem handlerDefect_frame (c : ChanIdx) (s : State) : ChanFrame s (handlerDefect c s) :=
  ⟨_, s.intreq, true, rfl⟩

theorem advanceChannel_frame (c : ChanIdx) (s : State) : ChanFrame s (advanceChannel c s) := by
  unfold advanceChannel
  split
  · exact handler1_frame c s
  split
  · exact handler5_frame c s
  split
  · exact handler2_frame c s
  split
  · exact handler3_frame c s
  · exact handlerDefect_frame c s

theorem refill_frame (c : ChanIdx) (s : State) : ChanFrame s (refill c s) := modChan_frame s c _

theorem dmaStart_frame (c : ChanIdx) (s : State) : ChanFrame s (dmaStart c s) := by
  unfold dmaStart
  split
  · exact (modChan_frame s c _).trans (advanceChannel_frame c _)
  · exact .refl s

theorem lineService_frame (c : ChanIdx) (s : State) : ChanFrame s (lineService c s) := by
  have h : ChanFrame s ((dmaStart c s).modChan c fun k => { k with dmaen := ena s c }) :=
    (dmaStart_frame c s).trans (modChan_frame _ c _)
  unfold lineService
  dsimp only
  split
  · exact h.trans (refill_frame c _)
  · exact h

theorem effectLineSync_frame (s : State) : ChanFrame s (effectLineSync s) :=
  (((lineService_frame 0 s).trans (lineService_frame 1 _)).trans (lineService_frame 2 _)).trans (lineService_frame 3 _)

theorem writeDat_frame (c : ChanIdx) (v : Word) (s : State) : ChanFrame s (writeDat c v s) :=
  (raiseIrqIf_frame _ c s).trans (modChan_frame _ c _)

theorem dispatchChannel_frame (c : ChanIdx) (s : State) : ChanFrame s (dispatchChannel c s) := by
  unfold dispatchChannel
  split
  · exact advanceChannel_frame c s
  · exact .refl s

theorem dispatchAll_frame (s : State) : ChanFrame s (dispatchAll s) :=
  (((dispatchChannel_frame 0 s).trans (dispatchChannel_frame 1 _)).trans (dispatchChannel_frame 2 _)).trans
    (dispatchChannel_frame 3 _)

/-- `t` is `s` but for what the output stage changes: the sample countdown, the filters, the buffer, what was sent. -/
def OutputFrame (s t : State) : Prop :=
  ∃ (n : BitVec 28) (l r : FilterRec) (b : PcmBuffer) (o : List OutEvent),
    t = { s with nextSampleEvtime := n, filterL := l, filterR := r, pcm := b, out := o }

theorem flushCheck_frame (s : State) : ∃ (b : PcmBuffer) (o : List OutEvent), flushCheck s = { s with pcm := b, out := o } := by
  unfold flushCheck
  split
  · exact ⟨_, _, rfl⟩
  · exact ⟨s.pcm, s.out, rfl⟩

theorem appendFrame_frame (l r : Int) (s : State) :
    ∃ (b : PcmBuffer) (o : List OutEvent), appendFrame l r s = { s with pcm := b, out := o } := by
  obtain ⟨b, o, h⟩ := flushCheck_frame { s with pcm := { s.pcm with buf := s.pcm.buf ++ frame s.cfg.stereo l r } }
  exact ⟨b, o, h⟩

theorem sampleEvent_frame (s : State) : OutputFrame s (sampleEvent s) := by
  unfold sampleEvent
  split
  · unfold produceFrame
    obtain ⟨b, o, h⟩ := appendFrame_frame _ _ _
    exact ⟨_, _, _, b, o, h⟩
  · exact ⟨_, s.filterL, s.filterR, s.pcm, s.out, rfl⟩

theorem dispatchSample_frame (s : State) : OutputFrame s (dispatchSample s) := by
  unfold dispatchSample
  split
  · exact sampleEvent_frame s
  · exact ⟨s.nextSampleEvtime, s.filterL, s.filterR, s.pcm, s.out, rfl⟩

/-- `t` is `s` but for what the scheduler changes. -/
def SchedFrame (s t : State) : Prop :=
  ∃ (q : Quad Channel) (p : BitVec 64) (n : BitVec 28) (i : BitVec 4) (d : Bool) (l r : FilterRec) (b : PcmBuffer)
    (o : List OutEvent),
    t = { s with ch := q, pendingCycles := p, nextSampleEvtime := n, intreq := i, defectSeen := d, filterL := l,
                 filterR := r, pcm := b, out := o }

theorem SchedFrame.refl (s : State) : SchedFrame s s :=
  ⟨s.ch, s.pendingCycles, s.nextSampleEvtime, s.intreq, s.defectSeen, s.filterL, s.filterR, s.pcm, s.out, rfl⟩

theorem SchedFrame.trans {s t u : State} (h : SchedFrame s t) (h' : SchedFrame t u) : SchedFrame s u := by
  obtain ⟨_, _, _, _, _, _, _, _, _, rfl⟩ := h
  obtain ⟨q, p, n, i, d, l, r, b, o, rfl⟩ := h'
  exact ⟨q, p, n, i, d, l, r, b, o, rfl⟩

theorem elapse_frame (n : Nat) (s : State) : SchedFrame s (elapse n s) :=
  ⟨_, _, _, s.intreq, s.defectSeen, s.filterL, s.filterR, s.pcm, s.out, rfl⟩

theorem OutputFrame.sched {s t : State} (h : OutputFrame s t) : SchedFrame s t := by
  obtain ⟨n, l, r, b, o, rfl⟩ := h
  exact ⟨s.ch, s.pendingCycles, n, s.intreq, s.defectSeen, l, r, b, o, rfl⟩

theorem ChanFrame.sched {s t : State} (h : ChanFrame s t) : SchedFrame s t := by
  obtain ⟨q, i, d, rfl⟩ := h
  exact ⟨q, s.pendingCycles, s.nextSampleEvtime, i, d, s.filterL, s.filterR, s.pcm, s.out, rfl⟩

theorem iteration_frame (s : State) : SchedFrame s (iteration s) :=
  ((elapse_frame _ s).trans (dispatchSample_frame _).sched).trans (dispatchAll_frame _).sched

/-- A property that every iteration keeps is kept by the loop of a catch-up. -/
theorem drain_keeps (P : State → Prop) (step : ∀ s, s.pendingCycles ≠ 0 → stalled s = false → P s → P (iteration s))
    (n : Nat) (s : State) (h : P s) : P (drain n s) := by
  induction n generalizing s with
  | zero => exact h
  | succ n ih =>
    unfold drain
    split
    · exact h
    · split
      · exact h
      · exact ih _ (step s ‹_› (by simpa using ‹¬stalled s = true›) h)

/-- What the loop of a catch-up answers: the state after some iterations, at most `n`, none of which started with no cycles
left or at the stall. -/
theorem drain_iterates (n : Nat) (s : State) :
    ∃ j ≤ n, drain n s = iteration^[j] s ∧
      ∀ i < j, (iteration^[i] s).pendingCycles ≠ 0 ∧ stalled (iteration^[i] s) = false := by
  induction n generalizing s with
  | zero => exact ⟨0, le_refl 0, rfl, by omega⟩
  | succ n ih =>
    unfold drain
    split
    · exact ⟨0, by omega, rfl, by omega⟩
    · split
      · exact ⟨0, by omega, rfl, by omega⟩
      · obtain ⟨j, hj, h, hi⟩ := ih (iteration s)
        refine ⟨j + 1, by omega, h, fun i hij => ?_⟩
        cases i with
        | zero => exact ⟨‹_›, by simpa using ‹¬stalled s = true›⟩
        | succ i => exact hi i (by omega)

theorem drain_frame (n : Nat) (s : State) : SchedFrame s (drain n s) :=
  drain_keeps (SchedFrame s) (fun t _ _ h => h.trans (iteration_frame t)) n s (.refl s)

end Sys2Proof.Machine
end

