-- ==== Sys2Proof/Laws/Commands.lean ====
section
/-! SUPPORT. What the shared operations of the commands can answer, said once for each: the catch-up, the register
command, READ, RESET and the step. -/

namespace Sys2Proof.Machine

/-- Where a settled catch-up answers a next state, it has completed the held command or it is held at the stall. -/
theorem settle_next {s t : State} (h : settle s = .next t) :
    ((drain (drainBound s) s).pendingCycles = 0 ∧ t = completeHeld (drain (drainBound s) s)) ∨
      ((drain (drainBound s) s).pendingCycles ≠ 0 ∧ stalled (drain (drainBound s) s) = true ∧
        t = drain (drainBound s) s) := by
  unfold settle settleDrained at h
  split at h
  · exact .inl ⟨‹_›, by cases h; rfl⟩
  · split at h
    · exact .inr ⟨‹_›, ‹_›, by cases h; rfl⟩
    · cases h

/-- A resumed catch-up that runs to the end answers the held command's effect, with nothing held. -/
theorem settle_completed {s : State} {cmd : Instr} (hh : s.held = some cmd)
    (hp : (drain (drainBound s) s).pendingCycles = 0) :
    settle s = .next (effect cmd { drain (drainBound s) s with held := none }) := by
  obtain ⟨_, _, _, _, _, _, _, _, _, h⟩ := drain_frame (drainBound s) s
  have hd : (drain (drainBound s) s).held = some cmd := by rw [h]; exact hh
  simp [settle, settleDrained, hp, completeHeld, hd]

/-- A resumed catch-up that stalls again answers the state at the stall, its command still held. -/
theorem settle_stalled {s : State} {cmd : Instr} (hh : s.held = some cmd)
    (hp : (drain (drainBound s) s).pendingCycles ≠ 0) (hs : stalled (drain (drainBound s) s) = true) :
    settle s = .next (drain (drainBound s) s) ∧ (drain (drainBound s) s).held = some cmd := by
  obtain ⟨_, _, _, _, _, _, _, _, _, h⟩ := drain_frame (drainBound s) s
  exact ⟨by unfold settle settleDrained; rw [if_neg hp, if_pos hs], by rw [h]; exact hh⟩

/-- A catch-up never answers a refusal. -/
theorem settle_not_refused (s : State) (r : Refusal) : settle s ≠ .refused r := by
  unfold settle settleDrained
  split
  · simp
  · split <;> simp

/-- Where a register command answers a next state, one of these holds: ignored, not taken, one of its two faults, or its
catch-up was run. -/
theorem registerCommand_next {cmd : Instr} {ok : Bool} {s t : State} (h : registerCommand cmd ok s = .next t) :
    (deaf s = true ∧ t = s) ∨ (s.held.isSome = true ∧ t = s) ∨ (ok = false ∧ t = takeFault .configError s) ∨
      (s.now < s.lastCycles ∧ t = takeFault .timeReversal s) ∨
      (deaf s = false ∧ s.held = none ∧ ok = true ∧ s.lastCycles ≤ s.now ∧ settle (arm cmd s) = .next t) := by
  unfold registerCommand at h
  split at h
  · exact .inl ⟨‹_›, by cases h; rfl⟩
  split at h
  · exact .inr (.inl ⟨‹_›, by cases h; rfl⟩)
  split at h
  · exact .inr (.inr (.inl ⟨by simpa using ‹(!ok) = true›, by cases h; rfl⟩))
  split at h
  · exact .inr (.inr (.inr (.inl ⟨‹_›, by cases h; rfl⟩)))
  · refine .inr (.inr (.inr (.inr ⟨?_, ?_, ?_, ?_, h⟩)))
    · simpa using ‹¬deaf s = true›
    · simpa using ‹¬s.held.isSome = true›
    · simpa using ‹¬(!ok) = true›
    · exact BitVec.not_lt.mp ‹_›

theorem drain_arm_held (cmd : Instr) (s : State) (n : Nat) : (drain n (arm cmd s)).held = some cmd := by
  obtain ⟨_, _, _, _, _, _, _, _, _, h⟩ := drain_frame n (arm cmd s)
  rw [h]
  rfl

/-- Where its catch-up runs to the end, a register command answers its effect on the caught-up state. -/
theorem registerCommand_completes {cmd : Instr} {s : State} (h : completes cmd s) :
    registerCommand cmd true s = .next (effect cmd (caughtUp cmd s)) := by
  obtain ⟨⟨hf, ha, hh, ht⟩, hp⟩ := h
  have hp' : (drain (drainBound (arm cmd s)) (arm cmd s)).pendingCycles = 0 := hp
  have hlt : ¬s.now < s.lastCycles := BitVec.not_lt.mpr ht
  simp [registerCommand, deaf, hf, ha, hh, hlt, settle, settleDrained, hp', completeHeld, drain_arm_held, caughtUp]

/-- Everything a caught-up state keeps of the state the command met. -/
theorem caughtUp_frame (cmd : Instr) (s : State) :
    ∃ (q : Quad Channel) (p : BitVec 64) (n : BitVec 28) (i : BitVec 4) (d : Bool) (l r : FilterRec) (b : PcmBuffer)
      (o : List OutEvent),
      caughtUp cmd s = { s with ch := q, pendingCycles := p, nextSampleEvtime := n, intreq := i, defectSeen := d, filterL := l,
                                filterR := r, pcm := b, out := o, lastCycles := s.now, held := none } := by
  obtain ⟨q, p, n, i, d, l, r, b, o, h⟩ := drain_frame (drainBound (arm cmd s)) (arm cmd s)
  exact ⟨q, p, n, i, d, l, r, b, o, by rw [caughtUp, h]; rfl⟩

/-- Where READ answers a next state, one of these holds: ignored, ProtocolViolation, still waiting, or the request is
taken and a held catch-up resumed. -/
theorem execRead_next {n : Word} {s t : State} (h : execRead n s = .next t) :
    (deaf s = true ∧ t = s) ∨ (s.pcm.waitingRead = false ∧ t = takeFault .protocolViolation s) ∨
      (readCount s.cfg.stereo n = 0 ∧ t = s) ∨
      (deaf s = false ∧ s.pcm.waitingRead = true ∧ readCount s.cfg.stereo n ≠ 0 ∧
        ((s.held = none ∧ t = acceptRead (readCount s.cfg.stereo n) s) ∨
          (s.held ≠ none ∧ settle (acceptRead (readCount s.cfg.stereo n) s) = .next t))) := by
  unfold execRead at h
  split at h
  · exact .inl ⟨‹_›, by cases h; rfl⟩
  split at h
  · exact .inr (.inl ⟨by simpa using ‹(!s.pcm.waitingRead) = true›, by cases h; rfl⟩)
  split at h
  · exact .inr (.inr (.inl ⟨‹_›, by cases h; rfl⟩))
  · refine .inr (.inr (.inr ⟨by simpa using ‹¬deaf s = true›, by simpa using ‹¬(!s.pcm.waitingRead) = true›, ‹_›, ?_⟩))
    unfold resume at h
    split at h
    · exact .inr ⟨by simpa [Option.isSome_iff_ne_none] using ‹(acceptRead _ s).held.isSome = true›, h⟩
    · exact .inl ⟨by simpa using ‹¬(acceptRead _ s).held.isSome = true›, by cases h; rfl⟩

/-- RESET always answers a next state: the reset state, or ConfigError and nothing else. -/
theorem execReset_next (s : State) :
    (∃ cfg, loadCfg s.cfgIn = some cfg ∧ execReset s = .next (afterReset s.now cfg s)) ∨
      (loadCfg s.cfgIn = none ∧ execReset s = .next (takeFault .configError s)) := by
  unfold execReset
  split
  · exact .inr ⟨‹_›, rfl⟩
  · exact .inl ⟨_, ‹_›, rfl⟩

/-- Where a step answers a next state, it did nothing, did a host write, refused a word, or ran the decoded command. -/
theorem step_next {s t : State} (h : step s = .next t) :
    (fetch s = .idle ∧ t = s) ∨ (∃ s', fetch s = .written s' ∧ t = s') ∨
      ∃ p w s', fetch s = .command p w s' ∧
        ((∃ why, decodeOn p w = .rejected why ∧ t = illegalCommand s') ∨
          ∃ i, decodeOn p w = .instr i ∧ exec i s' = .next t) := by
  unfold step at h
  split at h
  · exact .inl ⟨‹_›, by cases h; rfl⟩
  · exact .inr (.inl ⟨_, ‹_›, by cases h; rfl⟩)
  · refine .inr (.inr ⟨_, _, _, ‹_›, ?_⟩)
    unfold runWord at h
    split at h
    · exact .inr ⟨_, ‹_›, h⟩
    · exact .inl ⟨_, ‹_›, by cases h; rfl⟩

/-- What a fetch takes: nothing, a host write, or a command; apart from the environment the state is untouched. -/
theorem fetch_cases (s : State) :
    fetch s = .idle ∨ (∃ a b l, fetch s = .written { s with inputs := l, mem := Memory.write s.mem (BitVec.toNat (w := 32) a) b }) ∨
      ∃ p w l now cfg, fetch s = .command p w { s with inputs := l, now := now, cfgIn := cfg } := by
  unfold fetch
  split
  · exact .inl rfl
  · rename_i i rest _
    cases i with
    | register w now => exact .inr (.inr ⟨.register, w, rest, now, s.cfgIn, rfl⟩)
    | control w now cfg => exact .inr (.inr ⟨.control, w, rest, now, cfg, rfl⟩)
    | hostWrite a b => exact .inr (.inl ⟨a, b, rest, rfl⟩)

end Sys2Proof.Machine
end

