-- ==== Sys2Proof/Laws/Memory.lean ====
section
/-! SUPPORT. The external memory: read after write, and the canonical form under every memory operation. -/

namespace Sys2Proof.Machine

theorem Memory.read_write_self (m : Memory) (a : Nat) (b : Byte) (h : Memory.wf m) :
    Memory.read (Memory.write m a b) a = b := by
  obtain ⟨hs, -⟩ := h
  induction m with
  | nil => unfold Memory.write; split <;> simp_all [Memory.read]
  | cons x rest ih =>
    obtain ⟨k, v⟩ := x
    have hr := List.pairwise_cons.mp hs
    have absent : ∀ l : Memory, (∀ y ∈ l, a < y.1) → Memory.read l a = Config.memoryByte a := by
      intro l hl
      induction l with
      | nil => rfl
      | cons y l ihl =>
        have hy := hl y List.mem_cons_self
        have hne : y.1 ≠ a := by omega
        have ht := ihl fun z hz => hl z (List.mem_cons_of_mem _ hz)
        simp [Memory.read, hne, ht]
    unfold Memory.write
    split
    · rename_i hlt
      have hall : ∀ y ∈ ((k, v) :: rest : Memory), a < y.1 := by
        intro y hy
        rcases List.mem_cons.mp hy with rfl | hy
        · exact hlt
        · exact Nat.lt_trans hlt (hr.1 y hy)
      split
      · rename_i hb
        rw [absent _ hall, hb]
      · simp [Memory.read]
    · split
      · rename_i hk
        split
        · rename_i hb
          rw [absent rest (fun y hy => by have := hr.1 y hy; omega), hb]
        · simp [Memory.read]
      · rename_i hk
        have hne : k ≠ a := fun h => hk h.symm
        simp [Memory.read, hne, ih hr.2]

theorem Memory.read_write_of_ne (m : Memory) {a a' : Nat} (b : Byte) (h : a' ≠ a) :
    Memory.read (Memory.write m a b) a' = Memory.read m a' := by
  induction m with
  | nil =>
    unfold Memory.write
    split
    · rfl
    · simp [Memory.read, h.symm]
  | cons x rest ih =>
    obtain ⟨k, v⟩ := x
    unfold Memory.write
    split
    · split
      · rfl
      · simp [Memory.read, h.symm]
    · split
      · rename_i hk
        subst hk
        split <;> simp [Memory.read, h.symm]
      · simp [Memory.read, ih]

theorem Memory.mem_write {m : Memory} {a : Nat} {b : Byte} {x : Host.Cell} (h : x ∈ Memory.write m a b) :
    x ∈ m ∨ (x = (a, b) ∧ b ≠ Config.memoryByte a) := by
  induction m with
  | nil =>
    unfold Memory.write at h
    split at h
    · exact .inl h
    · exact .inr ⟨List.mem_singleton.mp h, ‹_›⟩
  | cons y rest ih =>
    obtain ⟨k, v⟩ := y
    unfold Memory.write at h
    split at h
    · split at h
      · exact .inl h
      · rcases List.mem_cons.mp h with h | h
        · exact .inr ⟨h, ‹_›⟩
        · exact .inl h
    · split at h
      · split at h
        · exact .inl (List.mem_cons_of_mem _ h)
        · rcases List.mem_cons.mp h with h | h
          · exact .inr ⟨h, ‹_›⟩
          · exact .inl (List.mem_cons_of_mem _ h)
      · rcases List.mem_cons.mp h with h | h
        · exact .inl (h ▸ List.mem_cons_self)
        · rcases ih h with h | h
          · exact .inl (List.mem_cons_of_mem _ h)
          · exact .inr h

theorem Memory.pairwise_write {m : Memory} (a : Nat) (b : Byte) (hs : m.Pairwise (fun x y => x.1 < y.1)) :
    (Memory.write m a b).Pairwise (fun x y => x.1 < y.1) := by
  induction m with
  | nil => unfold Memory.write; split <;> simp
  | cons y rest ih =>
    obtain ⟨k, v⟩ := y
    obtain ⟨h1, h2⟩ := List.pairwise_cons.mp hs
    unfold Memory.write
    split
    · rename_i hlt
      split
      · exact hs
      · refine List.pairwise_cons.mpr ⟨fun y hy => ?_, hs⟩
        rcases List.mem_cons.mp hy with rfl | hy
        · exact hlt
        · exact Nat.lt_trans hlt (h1 y hy)
    · rename_i hnlt
      split
      · rename_i hk
        subst hk
        split
        · exact h2
        · exact List.pairwise_cons.mpr ⟨h1, h2⟩
      · rename_i hk
        refine List.pairwise_cons.mpr ⟨fun y hy => ?_, ih h2⟩
        rcases Memory.mem_write hy with hy | ⟨rfl, -⟩
        · exact h1 y hy
        · show k < a
          omega

/-- Every memory operation keeps the canonical form: a write at an address of the space does. -/
theorem Memory.write_wf {m : Memory} {a : Nat} (b : Byte) (h : Memory.wf m) (ha : a < 2 ^ 32) :
    Memory.wf (Memory.write m a b) := by
  refine ⟨Memory.pairwise_write a b h.1, fun x hx => ?_⟩
  rcases Memory.mem_write hx with hx | ⟨rfl, hb⟩
  · exact h.2 x hx
  · exact ⟨ha, hb⟩

theorem Memory.reset_wf : Memory.wf State.reset.mem := by
  simp [Memory.wf, State.reset]

end Sys2Proof.Machine
end

