-- ==== Sys2Proof/Laws/Operations.lean ====
section
/-! SUPPORT. What the operand maps, the buffer, the mask, the configuration check and the decoder's last stage can answer,
said once for each. -/

namespace Sys2Proof

/-- A word decodes on a port exactly when it decodes to a command of that port. -/
theorem decodeOn_eq_instr {p : Port} {w : CmdWord} {i : Instr} :
    decodeOn p w = .instr i ↔ decodeWord w = .instr i ∧ i.port = p := by
  unfold decodeOn
  split <;> rename_i h <;> simp only [h]
  · rename_i j
    by_cases hp : j.port = p
    · simp only [hp, if_true, Decoded.instr.injEq]
      constructor
      · rintro rfl
        exact ⟨rfl, hp⟩
      · exact And.left
    · simp only [hp, if_false, Decoded.instr.injEq, reduceCtorEq, false_iff]
      rintro ⟨rfl, h'⟩
      exact hp h'
  · simp

namespace Machine

/-- What a channel makes of the minimum (R201): no more than before, no more than its countdown if it is active, and one of
the two. -/
theorem bid_spec (k : Channel) (b : Nat) :
    bid k b ≤ b ∧ (k.state ≠ 0 → bid k b ≤ k.evtime.toNat) ∧
      (bid k b = b ∨ (k.state ≠ 0 ∧ bid k b = k.evtime.toNat)) := by
  unfold bid Channel.active
  by_cases h : k.state = 0
  · simp [h]
  · simp only [bne_iff_ne, ne_eq, h, not_false_eq_true, true_and]
    split <;> simp <;> omega

theorem volRule_le (v : Word) : (volRule v).toNat ≤ 63 := by
  unfold volRule
  split
  · decide
  · have := ((v.extractLsb' 0 6)).isLt
    simp only [BitVec.toNat_setWidth]
    omega

theorem lclRule_even (v : Word) : (lclRule v).getLsbD 0 = false := by simp [lclRule]

theorem sat16_range (v : Int) : -32768 ≤ sat16 v ∧ sat16 v ≤ 32767 := by unfold sat16; omega

theorem sat16_of_range {v : Int} (h : -32768 ≤ v) (h' : v ≤ 32767) : sat16 v = v := by unfold sat16; omega

theorem sext8_range (b : Byte) : -128 ≤ sext8 b ∧ sext8 b ≤ 127 := by
  have h := BitVec.toInt_lt (x := b)
  have h' := BitVec.le_toInt (x := b)
  unfold sext8
  omega

theorem frameBytes_pos (stereo : Bool) : 0 < frameBytes stereo := by cases stereo <;> decide

/-- READ's count is whole frames, no more than asked and no more than READ_MAX. -/
theorem readCount_spec (stereo : Bool) (n : Word) :
    readCount stereo n % frameBytes stereo = 0 ∧ readCount stereo n ≤ n.toNat ∧ readCount stereo n ≤ 4088 := by
  unfold readCount Config.readMax
  refine ⟨?_, by omega, by omega⟩
  exact Nat.mod_eq_zero_of_dvd (Nat.dvd_sub_mod _)

theorem frame_length (stereo : Bool) (oL oR : Int) : (frame stereo oL oR).length = frameBytes stereo := by
  cases stereo <;> rfl

/-- The flush either sends the whole buffer or does nothing. -/
theorem flushCheck_cases (s : State) :
    (chunk s ≤ s.pcm.fill ∧
      flushCheck s =
        { s with
          out := s.out ++ [.emit s.pcm.buf]
          pcm :=
            { buf := []
              req := s.pcm.req - s.pcm.fill
              waitingRead := if s.pcm.req - s.pcm.fill = 0 then true else s.pcm.waitingRead } }) ∨
      (s.pcm.fill < chunk s ∧ flushCheck s = s) := by
  unfold flushCheck
  split
  · exact .inl ⟨‹_›, rfl⟩
  · exact .inr ⟨Nat.lt_of_not_le ‹_›, rfl⟩

/-- The mask of R45 leaves a 32-bit value as it is, or makes it 0. -/
theorem masked_ones (x : Int) : masked 0xFFFFFFFF x = (BitVec.ofInt 32 x).toInt := by
  unfold masked
  congr 1
  exact BitVec.and_allOnes

theorem masked_zero (x : Int) : masked 0 x = 0 := by simp [masked]

/-- A sample event reloads the countdown, and makes a frame only where frames are produced. -/
theorem sampleEvent_cases (s : State) :
    (producing s = true ∧ sampleEvent s = produceFrame { s with nextSampleEvtime := s.sampleEvtime }) ∨
      (producing s = false ∧ sampleEvent s = { s with nextSampleEvtime := s.sampleEvtime }) := by
  unfold sampleEvent
  split
  · exact .inl ⟨‹_›, rfl⟩
  · exact .inr ⟨by simpa using ‹¬producing s = true›, rfl⟩

/-- The buffer and the output after a flush depend on the buffer, the output and the configuration alone. -/
theorem flushCheck_of_agree {s t : State} (hp : s.pcm = t.pcm) (ho : s.out = t.out) (hc : s.cfg = t.cfg) :
    (flushCheck s).pcm = (flushCheck t).pcm ∧ (flushCheck s).out = (flushCheck t).out := by
  have hk : chunk s = chunk t := by unfold chunk; rw [hp, hc]
  rcases flushCheck_cases s with ⟨h, e⟩ | ⟨h, e⟩ <;> rcases flushCheck_cases t with ⟨h', e'⟩ | ⟨h', e'⟩ <;> rw [e, e']
  · exact ⟨by simp only [hp], by simp only [hp, ho]⟩
  · rw [hk, hp] at h
    omega
  · rw [hk, hp] at h
    omega
  · exact ⟨hp, ho⟩

/-- The buffer and the output after a frame depend on the buffer, the output and the configuration alone. -/
theorem appendFrame_of_agree {s t : State} (hp : s.pcm = t.pcm) (ho : s.out = t.out) (hc : s.cfg = t.cfg) (l r : Int) :
    (appendFrame l r s).pcm = (appendFrame l r t).pcm ∧ (appendFrame l r s).out = (appendFrame l r t).out := by
  unfold appendFrame
  refine flushCheck_of_agree ?_ ho hc
  simp only [hp, hc]

/-- A sample event reloads its countdown, whatever the tier. -/
theorem sampleEvent_nextSampleEvtime (s : State) : (sampleEvent s).nextSampleEvtime = s.sampleEvtime := by
  rcases sampleEvent_cases s with ⟨_, h⟩ | ⟨_, h⟩ <;> rw [h]
  unfold produceFrame
  obtain ⟨b, o, e⟩ := appendFrame_frame _ _ _
  rw [e]

/-- A configuration that is taken: its names are listed, its ranges and coefficients valid, and it is built as given. -/
theorem loadCfg_some {r : RawCfg} {cfg : Cfg} (h : loadCfg r = some cfg) :
    ∃ i t f, interpOfName r.interp = some i ∧ filterOfName r.filter = some t ∧ formatOfName r.filterFp = some f ∧
      rangesValid r = true ∧ coefsFinite t (convertCoefs f r.coefs) = true ∧ cfg = buildCfg r i t f := by
  unfold loadCfg at h
  split at h
  · rename_i i t f hi ht hf
    split at h
    · rename_i hv
      simp only [Bool.and_eq_true] at hv
      exact ⟨i, t, f, hi, ht, hf, hv.1, hv.2, by cases h; rfl⟩
    · cases h
  · cases h

end Machine
end Sys2Proof
end

