-- ==== Sys2Proof/Laws/PerInstr.lean ====
section
/-! SUPPORT. Laws stated per instruction. FitsRow: the encoder's word of a command fits that command's row of
spec/opcode_table.json (the row's mask and match, written out from the table). -/

namespace Sys2Proof.Laws

/-- The mask of a command's row of the opcode table. -/
def rowMask (i : Instr) : CmdWord :=
  match i with
  | .aud0lch _ => 0xFFFF0000#32
  | .aud0lcl _ => 0xFFFF0000#32
  | .aud0len _ => 0xFFFF0000#32
  | .aud0per _ => 0xFFFF0000#32
  | .aud0vol _ => 0xFFFF0000#32
  | .aud0dat _ => 0xFFFF0000#32
  | .aud1lch _ => 0xFFFF0000#32
  | .aud1lcl _ => 0xFFFF0000#32
  | .aud1len _ => 0xFFFF0000#32
  | .aud1per _ => 0xFFFF0000#32
  | .aud1vol _ => 0xFFFF0000#32
  | .aud1dat _ => 0xFFFF0000#32
  | .aud2lch _ => 0xFFFF0000#32
  | .aud2lcl _ => 0xFFFF0000#32
  | .aud2len _ => 0xFFFF0000#32
  | .aud2per _ => 0xFFFF0000#32
  | .aud2vol _ => 0xFFFF0000#32
  | .aud2dat _ => 0xFFFF0000#32
  | .aud3lch _ => 0xFFFF0000#32
  | .aud3lcl _ => 0xFFFF0000#32
  | .aud3len _ => 0xFFFF0000#32
  | .aud3per _ => 0xFFFF0000#32
  | .aud3vol _ => 0xFFFF0000#32
  | .aud3dat _ => 0xFFFF0000#32
  | .dmacon _ => 0xFFFF0000#32
  | .intreq _ => 0xFFFF0000#32
  | .adkcon _ => 0xFFFF0000#32
  | .dmaconr => 0xFFFFFFFF#32
  | .adkconr => 0xFFFFFFFF#32
  | .intreqr => 0xFFFFFFFF#32
  | .sync => 0xFFFFFFFF#32
  | .lineSync => 0xFFFFFFFF#32
  | .setled _ => 0xFFFFFFFE#32
  | .setmaxhpos _ => 0xFFFF0000#32
  | .setsevt _ => 0xF0000000#32
  | .read _ => 0xFFFF0000#32
  | .reset => 0xFFFFFFFF#32

/-- The match of a command's row of the opcode table. -/
def rowMatch (i : Instr) : CmdWord :=
  match i with
  | .aud0lch _ => 0x00A00000#32
  | .aud0lcl _ => 0x00A20000#32
  | .aud0len _ => 0x00A40000#32
  | .aud0per _ => 0x00A60000#32
  | .aud0vol _ => 0x00A80000#32
  | .aud0dat _ => 0x00AA0000#32
  | .aud1lch _ => 0x00B00000#32
  | .aud1lcl _ => 0x00B20000#32
  | .aud1len _ => 0x00B40000#32
  | .aud1per _ => 0x00B60000#32
  | .aud1vol _ => 0x00B80000#32
  | .aud1dat _ => 0x00BA0000#32
  | .aud2lch _ => 0x00C00000#32
  | .aud2lcl _ => 0x00C20000#32
  | .aud2len _ => 0x00C40000#32
  | .aud2per _ => 0x00C60000#32
  | .aud2vol _ => 0x00C80000#32
  | .aud2dat _ => 0x00CA0000#32
  | .aud3lch _ => 0x00D00000#32
  | .aud3lcl _ => 0x00D20000#32
  | .aud3len _ => 0x00D40000#32
  | .aud3per _ => 0x00D60000#32
  | .aud3vol _ => 0x00D80000#32
  | .aud3dat _ => 0x00DA0000#32
  | .dmacon _ => 0x00960000#32
  | .intreq _ => 0x009C0000#32
  | .adkcon _ => 0x009E0000#32
  | .dmaconr => 0x10020000#32
  | .adkconr => 0x10100000#32
  | .intreqr => 0x101E0000#32
  | .sync => 0x20000000#32
  | .lineSync => 0x30000000#32
  | .setled _ => 0x40000000#32
  | .setmaxhpos _ => 0x50000000#32
  | .setsevt _ => 0x60000000#32
  | .read _ => 0x80000000#32
  | .reset => 0x90000000#32

/-- Masking off the low `n` bits of `hi ++ lo` leaves `hi` over zeros. -/
theorem append_and_high {m n : Nat} (hi : BitVec m) (lo : BitVec n) :
    (hi ++ lo) &&& (BitVec.allOnes m ++ 0#n) = hi ++ 0#n := by
  ext i hi'
  simp only [BitVec.getElem_and, BitVec.getElem_append]
  split <;> simp

/-- The word of a command fits its row of the opcode table. -/
def FitsRow.Statement (i : Instr) : Prop := encode i &&& rowMask i = rowMatch i

theorem FitsRow.aud0lch (data : Word) : FitsRow.Statement (.aud0lch data) := append_and_high _ _

theorem FitsRow.aud0lcl (data : Word) : FitsRow.Statement (.aud0lcl data) := append_and_high _ _

theorem FitsRow.aud0len (data : Word) : FitsRow.Statement (.aud0len data) := append_and_high _ _

theorem FitsRow.aud0per (data : Word) : FitsRow.Statement (.aud0per data) := append_and_high _ _

theorem FitsRow.aud0vol (data : Word) : FitsRow.Statement (.aud0vol data) := append_and_high _ _

theorem FitsRow.aud0dat (data : Word) : FitsRow.Statement (.aud0dat data) := append_and_high _ _

theorem FitsRow.aud1lch (data : Word) : FitsRow.Statement (.aud1lch data) := append_and_high _ _

theorem FitsRow.aud1lcl (data : Word) : FitsRow.Statement (.aud1lcl data) := append_and_high _ _

theorem FitsRow.aud1len (data : Word) : FitsRow.Statement (.aud1len data) := append_and_high _ _

theorem FitsRow.aud1per (data : Word) : FitsRow.Statement (.aud1per data) := append_and_high _ _

theorem FitsRow.aud1vol (data : Word) : FitsRow.Statement (.aud1vol data) := append_and_high _ _

theorem FitsRow.aud1dat (data : Word) : FitsRow.Statement (.aud1dat data) := append_and_high _ _

theorem FitsRow.aud2lch (data : Word) : FitsRow.Statement (.aud2lch data) := append_and_high _ _

theorem FitsRow.aud2lcl (data : Word) : FitsRow.Statement (.aud2lcl data) := append_and_high _ _

theorem FitsRow.aud2len (data : Word) : FitsRow.Statement (.aud2len data) := append_and_high _ _

theorem FitsRow.aud2per (data : Word) : FitsRow.Statement (.aud2per data) := append_and_high _ _

theorem FitsRow.aud2vol (data : Word) : FitsRow.Statement (.aud2vol data) := append_and_high _ _

theorem FitsRow.aud2dat (data : Word) : FitsRow.Statement (.aud2dat data) := append_and_high _ _

theorem FitsRow.aud3lch (data : Word) : FitsRow.Statement (.aud3lch data) := append_and_high _ _

theorem FitsRow.aud3lcl (data : Word) : FitsRow.Statement (.aud3lcl data) := append_and_high _ _

theorem FitsRow.aud3len (data : Word) : FitsRow.Statement (.aud3len data) := append_and_high _ _

theorem FitsRow.aud3per (data : Word) : FitsRow.Statement (.aud3per data) := append_and_high _ _

theorem FitsRow.aud3vol (data : Word) : FitsRow.Statement (.aud3vol data) := append_and_high _ _

theorem FitsRow.aud3dat (data : Word) : FitsRow.Statement (.aud3dat data) := append_and_high _ _

theorem FitsRow.dmacon (data : Word) : FitsRow.Statement (.dmacon data) := append_and_high _ _

theorem FitsRow.intreq (data : Word) : FitsRow.Statement (.intreq data) := append_and_high _ _

theorem FitsRow.adkcon (data : Word) : FitsRow.Statement (.adkcon data) := append_and_high _ _

theorem FitsRow.dmaconr : FitsRow.Statement .dmaconr := by unfold FitsRow.Statement; decide

theorem FitsRow.adkconr : FitsRow.Statement .adkconr := by unfold FitsRow.Statement; decide

theorem FitsRow.intreqr : FitsRow.Statement .intreqr := by unfold FitsRow.Statement; decide

theorem FitsRow.sync : FitsRow.Statement .sync := by unfold FitsRow.Statement; decide

theorem FitsRow.lineSync : FitsRow.Statement .lineSync := by unfold FitsRow.Statement; decide

theorem FitsRow.setled (led : Bool) : FitsRow.Statement (.setled led) := append_and_high _ _

theorem FitsRow.setmaxhpos (value : BitVec 16) : FitsRow.Statement (.setmaxhpos value) := append_and_high _ _

theorem FitsRow.setsevt (value : BitVec 28) : FitsRow.Statement (.setsevt value) := append_and_high _ _

theorem FitsRow.read (nbytes : Word) : FitsRow.Statement (.read nbytes) := append_and_high _ _

theorem FitsRow.reset : FitsRow.Statement .reset := by unfold FitsRow.Statement; decide

end Sys2Proof.Laws
end

