-- ==== Sys2Proof/Machine/Pseudo.lean ====
section
/-! DEFINITION. The pseudo-instructions of spec/30_encoding.md R100: each expands to the register-port commands listed
there, every one at the same `now` unless the rule gives another. -/

namespace Sys2Proof.Machine

/-- A register-port command issued at `now` (R91). -/
def issue (now : BitVec 64) (i : Instr) : Input := .register (encode i) now

/-- `AUDcLC addr`: `AUDcLCH addr[31:16]`, then `AUDcLCL addr[15:0]`. -/
def pseudoAudLc (now : BitVec 64) (c : ChanIdx) (addr : BitVec 32) : List Input :=
  [issue now (audLch c (addr.extractLsb' 16 16)), issue now (audLcl c (addr.extractLsb' 0 16))]

/-- `DMAON m`: `DMACON 0x8200 | m`. -/
def pseudoDmaOn (now : BitVec 64) (m : Word) : List Input := [issue now (.dmacon (0x8200#16 ||| m))]

/-- `DMAOFF m`: `DMACON m`. -/
def pseudoDmaOff (now : BitVec 64) (m : Word) : List Input := [issue now (.dmacon m)]

/-- `IRQACK c`: `INTREQ (0x0080 << c)`. -/
def pseudoIrqAck (now : BitVec 64) (c : ChanIdx) : List Input := [issue now (.intreq (0x0080#16 <<< c.val))]

/-- `ADKSET m`: `ADKCON 0x8000 | m`. -/
def pseudoAdkSet (now : BitVec 64) (m : Word) : List Input := [issue now (.adkcon (0x8000#16 ||| m))]

/-- `ADKCLR m`: `ADKCON m`. -/
def pseudoAdkClr (now : BitVec 64) (m : Word) : List Input := [issue now (.adkcon m)]

/-- `WAIT n`: `SYNC` at the previous `now` plus `n`. Where the sum passes 2^64 - 1 it is reduced modulo 2^64, the model's
choice: R100 and R91 give no reduction (DESIGN CHOICE, log 20). -/
def pseudoWait (previous : BitVec 64) (n : Nat) : List Input := [issue (previous + BitVec.ofNat 64 n) .sync]

/-- `LINES k`: `k` LINE_SYNC commands, `G.maxhpos` cycles apart. Where a sum passes 2^64 - 1 it is reduced modulo 2^64, the
model's choice: R100 and R91 give no reduction (DESIGN CHOICE, log 20). -/
def pseudoLines (previous : BitVec 64) (maxhpos : BitVec 16) (k : Nat) : List Input :=
  match k with
  | 0 => []
  | k + 1 =>
    issue (previous + maxhpos.setWidth 64) .lineSync :: pseudoLines (previous + maxhpos.setWidth 64) maxhpos k

end Sys2Proof.Machine
end

