-- ==== Sys2Proof/Tests/Slice0.lean ====
section
/-! SUPPORT. The model's own tests: words written out from spec/30_encoding.md R92, R93 and R101, vectors and one-step
results of spec/95_test_vectors.md (each theorem names its rows), and for every statement that has hypotheses a state that
meets them. -/

namespace Sys2Proof.Tests

open Sys2Proof Sys2Proof.Machine

/-! ## Helpers -/

/-- The next state of an outcome. -/
def nextOf (o : Host.Outcome State Fault Refusal) : Option State :=
  match o with
  | .next s => some s
  | .fault _ => none
  | .refused _ => none

/-- What `f` finds in the state after `i` in `s`. -/
def see {α : Type} (i : Instr) (s : State) (f : State → α) : Option α := (nextOf (exec i s)).map f

/-- What `f` finds in the state after one step of `s`. -/
def seeStep {α : Type} (s : State) (f : State → α) : Option α := (nextOf (step s)).map f

/-- CFG-227 after RESET at 0 and READ 2048. -/
def running : State := { State.reset with pcm := { buf := [], req := 2048, waitingRead := false } }

/-- `running` with 100 cycles to catch up on. -/
def later : State := { running with now := 100 }

/-- Below tier 2: no frames are produced. -/
def silent : State := { State.reset with now := 1000, cfg := { Config.exampleCfg with produceSound := 1 } }

/-- A block held at the stall, with 1000 cycles to run (95_test_vectors.md Z3). -/
def stuck : State := { State.reset with lastCycles := 1000, pendingCycles := 1000, held := some .sync, now := 1000 }

/-- A faulted block. -/
def broken : State := { State.reset with faulted := true, faultReason := some .illegalCommand }

/-- The memory word 0x4080 at 0x1000 and 0x10F0 at 0x1002. -/
def words : Memory := [(0x1000, 0x40), (0x1001, 0x80), (0x1002, 0x10), (0x1003, 0xF0)]

/-- A channel record with the fields that an interpolator reads. -/
def voice (s l0 l1 l2 : Int) (vol per ev : Nat) : Channel :=
  { Channel.reset with
    currentSample := BitVec.ofInt 8 s, lastSample0 := BitVec.ofInt 8 l0, lastSample1 := BitVec.ofInt 8 l1,
    lastSample2 := BitVec.ofInt 8 l2, vol := BitVec.ofNat 7 vol, per := BitVec.ofNat 16 per,
    evtime := BitVec.ofNat 32 ev }

/-- `State.reset` with channel 0's record changed. -/
def with0 (f : Channel → Channel) : State := State.reset.modChan 0 f

/-! ## WellFormed smoke: an ill-formed term for each check -/

theorem test_wf_setmaxhpos_zero_refused : (Instr.setmaxhpos 0).wellFormed = false := by decide
theorem test_wf_setsevt_zero_refused : (Instr.setsevt 0).wellFormed = false := by decide
theorem test_wf_bounds_accepted :
    (Instr.setmaxhpos 1).wellFormed = true ∧ (Instr.setmaxhpos 0xFFFF).wellFormed = true ∧
      (Instr.setsevt 1).wellFormed = true ∧ (Instr.setsevt 0xFFFFFFF).wellFormed = true := by decide

/-! ## Decoding: every constructor's word, written out from R92 and R93 -/

theorem test_decode_aud0 :
    decodeOn .register 0x00A01234#32 = .instr (.aud0lch 0x1234) ∧
    decodeOn .register 0x00A21234#32 = .instr (.aud0lcl 0x1234) ∧
    decodeOn .register 0x00A41234#32 = .instr (.aud0len 0x1234) ∧
    decodeOn .register 0x00A61234#32 = .instr (.aud0per 0x1234) ∧
    decodeOn .register 0x00A81234#32 = .instr (.aud0vol 0x1234) ∧
    decodeOn .register 0x00AA1234#32 = .instr (.aud0dat 0x1234) := by decide
theorem test_decode_aud1 :
    decodeOn .register 0x00B0FFFF#32 = .instr (.aud1lch 0xFFFF) ∧
    decodeOn .register 0x00B2FFFF#32 = .instr (.aud1lcl 0xFFFF) ∧
    decodeOn .register 0x00B4FFFF#32 = .instr (.aud1len 0xFFFF) ∧
    decodeOn .register 0x00B6FFFF#32 = .instr (.aud1per 0xFFFF) ∧
    decodeOn .register 0x00B8FFFF#32 = .instr (.aud1vol 0xFFFF) ∧
    decodeOn .register 0x00BAFFFF#32 = .instr (.aud1dat 0xFFFF) := by decide
theorem test_decode_aud2 :
    decodeOn .register 0x00C00001#32 = .instr (.aud2lch 1) ∧
    decodeOn .register 0x00C20001#32 = .instr (.aud2lcl 1) ∧
    decodeOn .register 0x00C40001#32 = .instr (.aud2len 1) ∧
    decodeOn .register 0x00C60001#32 = .instr (.aud2per 1) ∧
    decodeOn .register 0x00C80001#32 = .instr (.aud2vol 1) ∧
    decodeOn .register 0x00CA0001#32 = .instr (.aud2dat 1) := by decide
theorem test_decode_aud3 :
    decodeOn .register 0x00D08000#32 = .instr (.aud3lch 0x8000) ∧
    decodeOn .register 0x00D28000#32 = .instr (.aud3lcl 0x8000) ∧
    decodeOn .register 0x00D48000#32 = .instr (.aud3len 0x8000) ∧
    decodeOn .register 0x00D68000#32 = .instr (.aud3per 0x8000) ∧
    decodeOn .register 0x00D88000#32 = .instr (.aud3vol 0x8000) ∧
    decodeOn .register 0x00DA8000#32 = .instr (.aud3dat 0x8000) := by decide
theorem test_decode_control_registers :
    decodeOn .register 0x00968201#32 = .instr (.dmacon 0x8201) ∧
    decodeOn .register 0x009C0080#32 = .instr (.intreq 0x0080) ∧
    decodeOn .register 0x009E8011#32 = .instr (.adkcon 0x8011) ∧
    decodeOn .register 0x10020000#32 = .instr .dmaconr ∧
    decodeOn .register 0x10100000#32 = .instr .adkconr ∧
    decodeOn .register 0x101E0000#32 = .instr .intreqr := by decide
theorem test_decode_timing :
    decodeOn .register 0x20000000#32 = .instr .sync ∧
    decodeOn .register 0x30000000#32 = .instr .lineSync ∧
    decodeOn .register 0x40000001#32 = .instr (.setled true) ∧
    decodeOn .register 0x40000000#32 = .instr (.setled false) ∧
    decodeOn .register 0x500000E3#32 = .instr (.setmaxhpos 227) ∧
    decodeOn .register 0x60000050#32 = .instr (.setsevt 80) ∧
    decodeOn .register 0x6FFFFFFF#32 = .instr (.setsevt 0xFFFFFFF) := by decide
theorem test_decode_control_port :
    decodeOn .control 0x80000800#32 = .instr (.read 2048) ∧
    decodeOn .control 0x90000000#32 = .instr .reset := by decide

/-- 95_test_vectors.md E1 to E12. -/
theorem test_decode_illegal_words :
    decodeOn .register 0x70000000#32 = .rejected .reservedClass ∧
    decodeOn .register 0xF0000000#32 = .rejected .reservedClass ∧
    decodeOn .register 0x00AC0000#32 = .rejected .unknownOffset ∧
    decodeOn .register 0x00010000#32 = .rejected .unknownOffset ∧
    decodeOn .register 0x00020000#32 = .rejected .readOnlyOffset ∧
    decodeOn .register 0x10A60000#32 = .rejected .writeOnlyOffset ∧
    decodeOn .register 0x20000001#32 = .rejected .reservedBits ∧
    decodeOn .register 0x40000002#32 = .rejected .reservedBits ∧
    decodeOn .register 0x80000800#32 = .rejected .wrongPort ∧
    decodeOn .control 0x20000000#32 = .rejected .wrongPort ∧
    decodeOn .control 0x90000001#32 = .rejected .reservedBits ∧
    decodeOn .register 0x02A60000#32 = .rejected .reservedBits := by decide

/-- R100: two expansions, as the words of R101. -/
theorem test_pseudo_instructions :
    pseudoAudLc 0 0 0x00012000 = [.register 0x00A00001#32 0, .register 0x00A22000#32 0] ∧
    pseudoDmaOn 0 0x0001 = [.register 0x00968201#32 0] ∧
    pseudoIrqAck 5 0 = [.register 0x009C0080#32 5] ∧
    pseudoLines 100 100 2 = [.register 0x30000000#32 200, .register 0x30000000#32 300] := by decide

/-! ## Register writes (95_test_vectors.md 2.2) -/

/-- W12 and X2. -/
theorem test_location :
    see (.aud0lch 0x0001) running (fun s => (s.chan 0).lc) = some 0x00010000 ∧
    see (.aud0lcl 0x2001) (running.modChan 0 fun k => { k with lc := 0x00010000 })
      (fun s => ((s.chan 0).lc, (s.chan 0).pt)) = some (0x00012000, 0) := by decide

/-- W13. -/
theorem test_len_latch :
    see (.aud1len 0x0010) running (fun s => ((s.chan 1).len, (s.chan 1).wlen)) = some (16, 0) := by decide

/-- W1 to W11. -/
theorem test_per_rule :
    ([0x0000, 0x0001, 0x0070, 0x0071, 0x01AC, 0xFFFF].map (perRule running)) = [65535, 113, 113, 113, 428, 65535] ∧
    perRule { running with cfg := { Config.exampleCfg with fastTier := 3 } } 0x000F = 16 ∧
    ([0x000F, 0x0001, 0x0000].map
      (perRule { running with cfg := { Config.exampleCfg with fastTier := 3, safetyClamp := false } })) = [15, 1, 65535] ∧
    perRule { running with maxhpos := 100, cfg := { Config.exampleCfg with fastTier := 2 } } 0x0028 = 50 := by decide

/-- S1 and S2, and 2.2's vol_rule row. -/
theorem test_per_and_vol :
    see (.aud0per 0) running (fun s => (s.chan 0).per) = some 65535 ∧
    see (.aud2vol 0x007F) running (fun s => (s.chan 2).vol) = some 63 ∧
    ([0x0000, 0x003F, 0x0040, 0x007F, 0x00BF, 0x0080, 0x0100, 0xFFFF, 0x0020].map volRule) =
      [0, 63, 63, 63, 63, 0, 0, 63, 32] := by decide

/-- W14 to W16. -/
theorem test_dat :
    see (.aud3dat 0x1234) (running.modChan 3 fun k => { k with per := 200 })
      (fun s => ((s.chan 3).state, (s.chan 3).dat, (s.chan 3).evtime, s.intreq)) = some (2, 0x1234, 200, 0b1000) ∧
    see (.aud3dat 0x5678) ({ running with intreq := 0b1000 }.modChan 3 fun k => { k with state := 2, per := 200, evtime := 9 })
      (fun s => ((s.chan 3).state, (s.chan 3).dat, (s.chan 3).evtime, s.intreq)) = some (2, 0x5678, 200, 0b1000) ∧
    see (.aud3dat 0x1234) { running with intreq := 0b1000 }
      (fun s => ((s.chan 3).state, (s.chan 3).dat, (s.chan 3).evtime)) = some (0, 0x1234, 65535) := by decide

/-- W17, W18, W22. -/
theorem test_adkcon :
    see (.adkcon 0x8011) running (fun s => (s.adkcon, (s.chan 0).adkMask, (s.chan 1).adkMask)) =
      some (0x0011, 0, 0xFFFFFFFF) ∧
    see (.adkcon 0x0001) { running with adkcon := 0x0011 } (fun s => (s.adkcon, (s.chan 0).adkMask)) = some (0x0010, 0) ∧
    see (.adkcon 0xFFFF) running (fun s => (s.adkcon, (s.chan 3).adkMask)) = some (0x7FFF, 0) ∧
    see .adkconr { running with adkcon := 0x7FFF } (fun s => s.out) = some [.answer 0x7FFF] := by decide

/-- W19. -/
theorem test_dmacon :
    see (.dmacon 0x8201) running (fun s => (s.dmacon, s.ch)) = some (0x0201, running.ch) ∧
    see .dmaconr { running with dmacon := 0x0201 } (fun s => s.out) = some [.answer 0x0201] := by decide

/-- W20 and W21. -/
theorem test_intreq :
    see (.intreq 0x8780) running (fun s => s.intreq) = some 0b1111 ∧
    see (.intreq 0x0180) { running with intreq := 0b1111 } (fun s => s.intreq) = some 0b1100 ∧
    see .intreqr { running with intreq := 0b1100 } (fun s => s.out) = some [.answer 0x0600] := by decide

/-! ## Channel handlers (95_test_vectors.md 2.3) -/

/-- A channel as rows H4 to H6 have it, in state `st`. -/
def armed (st : BitVec 3) : Channel :=
  { voice 7 1 2 3 0 300 0 with state := st, dat := 0x4080, nextdat := 0x4080 }

/-- H1, H2, H3. -/
theorem test_state1 :
    let s : BitVec 16 → State := fun w => { with0 (fun k => { k with state := 1, wlen := w, pt := 0x1000 }) with mem := words }
    (advanceChannel 0 (s 4)).chan 0 =
        { Channel.reset with state := 5, wlen := 3, pt := 0x1002, evtime := 227, nextdat := 0x4080 } ∧
      (advanceChannel 0 (s 4)).intreq = 0b0001 ∧ ((advanceChannel 0 (s 1)).chan 0).wlen = 1 ∧
      ((advanceChannel 0 (s 0)).chan 0).wlen = 65535 := by decide

/-- H4, H5, H6. -/
theorem test_state5 :
    let s := with0 fun _ => armed 5
    (advanceChannel 0 s).chan 0 =
        { voice 64 7 1 2 0 300 300 with state := 2, dat := 0x4080, nextdat := 0x4080, dataWritten := true } ∧
      (let t := advanceChannel 0 { s with cfg := { Config.exampleCfg with produceSound := 0 } }
       ((t.chan 0).per, (t.chan 0).evtime) = (65535, 65535)) ∧
      ((advanceChannel 0 { s with adkcon := 0x0010 }).chan 0).dataWritten = false := by decide

/-- H7, H8, H9. -/
theorem test_state2 :
    let s := with0 fun _ => { armed 2 with nextdat := 0, intreq2 := true, dmaen := true }
    (advanceChannel 0 s).chan 0 =
        { voice (-128) 7 1 2 0 300 300 with state := 3, dat := 0x4080, intreq2 := true, dmaen := true } ∧
      (let t := advanceChannel 0 { s with adkcon := 0x0010 }
       (t.chan 0 = { voice (-128) 7 1 2 0 300 300 with state := 3, dat := 0, dmaen := true, dataWritten := true }) ∧
         (t.chan 1).per = 65535 ∧ t.intreq = 0b0001) ∧
      (let t := advanceChannel 3
        ({ State.reset with adkcon := 0x0080 }.modChan 3 fun k => { k with state := 2, nextdat := 0x00C8, dmaen := true })
       (t.chan 3).dat = 0x00C8 ∧ (t.chan 3).dataWritten = true ∧ (t.chan 0).per = 65535) := by decide

/-- H10 to H13. -/
theorem test_state3 :
    let k3 : Channel := { voice (-16) 1 2 3 0 300 0 with state := 3, nextdat := 0x10F0 }
    (let t := advanceChannel 0 (with0 fun _ => { k3 with dmaen := true, intreq2 := true })
     t.chan 0 = { voice 16 (-16) 1 2 0 300 300 with
                  state := 2, nextdat := 0x10F0, dat := 0x10F0, dmaen := true, dataWritten := true } ∧ t.intreq = 0b0001) ∧
      (let t := advanceChannel 0 (with0 fun _ => { k3 with dmaen := true })
       (t.chan 0).dataWritten = true ∧ t.intreq = 0) ∧
      (let t := advanceChannel 0 (with0 fun _ => k3)
       (t.chan 0).state = 2 ∧ (t.chan 0).dataWritten = false ∧ t.intreq = 0b0001) ∧
      (let t := advanceChannel 0 { with0 (fun _ => k3) with intreq := 0b0001 }
       t.chan 0 = { voice 0 0 0 0 0 300 300 with state := 0, nextdat := 0x10F0 }) := by decide

/-- H14, H15, H16, H17. -/
theorem test_state3_attachment_and_defect :
    let k3 : Channel := { voice (-16) 1 2 3 0 300 0 with state := 3, dmaen := true }
    (let t := advanceChannel 0 { with0 (fun _ => { k3 with intreq2 := true }) with adkcon := 0x0010 }
     (t.chan 0).state = 2 ∧ (t.chan 0).intreq2 = false ∧ (t.chan 0).dataWritten = false ∧ t.intreq = 0) ∧
      (let t := advanceChannel 0 { with0 (fun _ => { k3 with nextdat := 0x0050 }) with adkcon := 0x0001 }
       (t.chan 0).dat = 0x0050 ∧ (t.chan 0).currentSample = 0 ∧ (t.chan 0).dataWritten = true ∧ (t.chan 1).vol = 63) ∧
      ((advanceChannel 0 { with0 (fun _ => { k3 with nextdat := 0x0030 }) with adkcon := 0x0001 }).chan 1).vol = 48 ∧
      (let t := advanceChannel 1 (State.reset.modChan 1 fun k => { k with state := 6 })
       (t.chan 1).state = 0 ∧ t.defectSeen = true) := by decide

/-- R56, R51: the observer sees the defect as part of the fault state. -/
theorem test_observe_fault_state :
    (observe (advanceChannel 1 (State.reset.modChan 1 fun k => { k with state := 6 }))).defectSeen = true ∧
      (observe State.reset).defectSeen = false ∧ (observe broken).faultReason = some .illegalCommand := by decide

/-- H18 and H19. -/
theorem test_line_sync_start :
    see .lineSync { with0 (fun k => { k with lc := 0x1000, len := 4 }) with dmacon := 0x0201, mem := words }
        (fun s => (s.chan 0, s.intreq)) =
      some ({ Channel.reset with
              state := 5, evtime := 227, lc := 0x1000, len := 4, wlen := 3, nextdat := 0x4080, pt := 0x1002,
              dmaen := true }, 0b0001) ∧
    see .lineSync { with0 (fun k => { k with state := 2, evtime := 9, pt := 0x1002 }) with dmacon := 0x0201, mem := words }
        (fun s => ((s.chan 0).state, (s.chan 0).dmaen, (s.chan 0).pt)) = some (2, true, 0x1002) := by decide

/-- H20, H21, H22, with the words of `words`. -/
theorem test_line_sync_refill :
    let k : Channel := { Channel.reset with state := 2, evtime := 9, dataWritten := true, dmaen := true, lc := 0x1000, len := 4 }
    see .lineSync { with0 (fun _ => { k with wlen := 1, pt := 0x1002 }) with dmacon := 0x0201, mem := words }
        (fun s => s.chan 0) =
      some { k with nextdat := 0x10F0, pt := 0x1000, wlen := 4, intreq2 := true, dataWritten := false } ∧
    see .lineSync { with0 (fun _ => { k with wlen := 3, pt := 0x1000 }) with dmacon := 0x0201, mem := words }
        (fun s => s.chan 0) = some { k with nextdat := 0x4080, pt := 0x1002, wlen := 2, dataWritten := false } ∧
    see .lineSync (with0 fun _ => k) (fun s => ((s.chan 0).dmaen, (s.chan 0).dataWritten)) = some (false, true) := by
  decide

/-! ## Scheduler and timing commands (95_test_vectors.md 2.4) -/

/-- K1. -/
theorem test_sync_makes_frames :
    see .sync { running with now := 800 } (fun s => (s.pcm.fill, s.out, s.nextSampleEvtime)) = some (40, [], 80) := by
  decide +kernel

/-- K4: sample events at 1030 and 1111. -/
theorem test_setsevt :
    (let s := { running with lastCycles := 1000, now := 1000, nextSampleEvtime := 30 }
     see (.setsevt 81) s (fun t => (t.sampleEvtime, t.nextSampleEvtime)) = some (81, 30) ∧
       see .sync { s with sampleEvtime := 81, now := 1111 } (fun t => (t.pcm.fill, t.nextSampleEvtime)) = some (8, 81)) := by
  decide

/-- K5 and K6. -/
theorem test_setmaxhpos :
    see (.setmaxhpos 100) running (fun s => s.maxhpos) = some 100 ∧
    see (.aud0per 0x0010) { running with maxhpos := 100 } (fun s => (s.chan 0).per) = some 50 ∧
    see (.setmaxhpos 100) (running.modChan 0 fun k => { k with per := 113 }) (fun s => (s.chan 0).per) = some 113 := by
  decide

theorem test_setled : see (.setled true) running (fun s => s.led) = some true := by decide

/-- K9, through a catch-up of 30 cycles: channel 0 sets channel 1's period before channel 1's own event uses it. Channel 2's
countdown falls by 30, and that of the idle channel 3 stays. -/
theorem test_same_cycle_order :
    let s := ((running.modChan 0 fun _ => { voice 0 0 0 0 63 100 30 with state := 2, nextdat := 0x00C8 }).modChan 1 fun _ =>
      { voice 0 0 0 0 63 100 30 with state := 2 }).modChan 2 fun _ => { voice 0 0 0 0 63 100 40 with state := 2 }
    see .sync { s.modChan 3 (fun k => { k with evtime := 5 }) with adkcon := 0x0010, now := 30 }
        (fun t => ((t.chan 1).per, (t.chan 1).state, (t.chan 1).evtime, (t.chan 2).evtime, (t.chan 3).evtime)) =
      some (200, 3, 200, 10, 5) := by decide

/-- K7's end: a channel in state 5 plays its first byte when its countdown of 227 runs out, and not a cycle earlier. -/
theorem test_channel_event_at_its_time :
    let s := running.modChan 0 fun _ => { voice 0 0 0 0 63 300 227 with state := 5, nextdat := 0x4080 }
    see .sync { s with now := 226 } (fun t => ((t.chan 0).state, (t.chan 0).evtime)) = some (5, 1) ∧
    see .sync { s with now := 227 } (fun t => ((t.chan 0).state, (t.chan 0).evtime, (t.chan 0).currentSample)) =
      some (2, 300, 0x40) := by decide +kernel

/-! ## Interpolators (95_test_vectors.md 2.5) -/

/-- N1 to N4 and L1 to L6. -/
theorem test_nearest_and_linear :
    [interpolate .nearest 80 (voice 64 0 0 0 63 400 100), interpolate .nearest 80 (voice (-128) 0 0 0 63 400 100),
     interpolate .nearest 80 (voice 127 0 0 0 63 400 100),
     interpolate .nearest 80 { voice 64 0 0 0 63 400 100 with adkMask := 0 },
     interpolate .linear 80 (voice 100 0 0 0 63 400 100), interpolate .linear 80 (voice 100 (-50) 0 0 63 400 0),
     interpolate .linear 80 (voice 100 (-50) 0 0 63 400 400), interpolate .linear 80 (voice 100 (-50) 0 0 63 400 399),
     interpolate .linear 80 (voice (-1) 0 0 0 1 256 128), interpolate .linear 80 (voice 100 0 0 0 63 300 450)] =
    [4032, -8064, 8001, 0, 1575, -3150, -3150, 6263, -1, 3150] := by decide

/-- The CRUX rows and A1 to A6. -/
theorem test_crux_and_anti :
    [interpolate .crux 80 (voice 100 0 0 0 10 400 280), interpolate .crux 80 (voice 100 (-50) 0 0 10 400 400),
     interpolate .crux 80 (voice 100 (-50) 0 0 10 400 79), interpolate .crux 80 (voice 100 (-50) 0 0 10 400 100),
     interpolate .crux 80 (voice 100 (-50) 0 0 10 100 150),
     interpolate .anti 80 (voice 100 0 0 0 10 400 360), interpolate .anti 80 (voice 100 (-50) 0 0 10 400 400),
     interpolate .anti 80 (voice 100 (-50) 0 0 10 400 0), interpolate .anti 80 (voice 100 (-50) 0 0 10 40 0),
     interpolate .anti 80 (voice 100 (-51) 0 0 10 400 379), interpolate .anti 80 (voice 100 (-50) 0 0 10 100 150)] =
    [500, -500, 1000, 1000, -500, 500, -500, 1000, 250, -113, -500] := by decide

/-- C1 to C6. -/
theorem test_cspline :
    [interpolate .cspline 80 (voice 10 10 10 10 10 400 123), interpolate .cspline 80 (voice 100 (-50) 20 7 63 400 0),
     interpolate .cspline 80 (voice 100 (-50) 20 7 63 400 100), interpolate .cspline 80 (voice 100 (-50) 20 7 63 400 200),
     interpolate .cspline 80 (voice 100 (-50) 20 7 63 400 399),
     interpolate .cspline 80 (voice 127 (-128) 127 (-128) 63 4 2)] =
    [100, -3150, -2899, -1484, 1255, -31] := by decide +kernel

/-- X6. -/
theorem test_mix :
    mixLeft { q0 := 100, q1 := 200, q2 := 300, q3 := 400 } = 500 ∧
    mixRight { q0 := 100, q1 := 200, q2 := 300, q3 := 400 } = 500 ∧
    mixLeft { q0 := 4032, q1 := 0, q2 := 0, q3 := -8064 } = -4032 := by decide

/-! ## Filter (95_test_vectors.md 2.6, with the coefficients assumed there) -/

/-- Half. -/
def half : Fp := fpOfRatio .binary64 false 1 2
/-- A quarter. -/
def quarter : Fp := fpOfRatio .binary64 false 1 4

/-- The configuration of F1 to F4. -/
def filterCfg (t : FilterKind) : Cfg :=
  { Config.exampleCfg with
    filter := t, coefs := { Config.zeroCoefs with a500a1 := half, a500a2 := quarter, a1200a2 := quarter } }

/-- The outputs of `n` samples of 1000. -/
def outputs (cfg : Cfg) (led : Bool) (n : Nat) (r : FilterRec) : List Int :=
  match n with
  | 0 => []
  | n + 1 => (filterSample cfg led r 1000).out :: outputs cfg led n (filterSample cfg led r 1000).record

/-- F1 to F4. -/
theorem test_filter_outputs :
    outputs (filterCfg .a500) false 4 FilterRec.reset = [500, 750, 875, 937] ∧
    outputs (filterCfg .a500) true 4 FilterRec.reset = [165, 314, 458, 575] ∧
    outputs (filterCfg .a1200) false 4 FilterRec.reset = [1000, 1000, 1000, 1000] ∧
    outputs (filterCfg .a1200) true 4 FilterRec.reset = [330, 463, 602, 693] := by decide +kernel

/-- F6 and F7. -/
theorem test_filter_saturates :
    (let one := fpOfInt .binary64 1
     let cfg := { filterCfg .a500 with coefs := { Config.zeroCoefs with a500a1 := one, a500a2 := one } }
     [(filterSample cfg false FilterRec.reset 40000).out, (filterSample cfg false FilterRec.reset (-40000)).out] =
       [32767, -32768]) ∧
    ([16128, 40000, -40000].map fun x => (filterSample Config.exampleCfg false FilterRec.reset x).out) =
      [16128, 32767, -32768] := by decide +kernel

/-! ## Output buffer and READ (95_test_vectors.md 2.7) -/

/-- B1, B2, B3. -/
theorem test_frames :
    frame true 1 (-2) = [0x00, 0x01, 0xFF, 0xFE] ∧ frame false 3 (-4) = [0x00, 0x00] ∧
    frame false (-3) (-4) = [0xFF, 0xFD] := by decide

/-- B4, B5, B6, B7. -/
theorem test_read :
    see (.read 0xFFFF) State.reset (fun s => s.pcm) = some { buf := [], req := 4088, waitingRead := false } ∧
    see (.read 6) State.reset (fun s => s.pcm) = some { buf := [], req := 4, waitingRead := false } ∧
    see (.read 8) running (fun s => (s.faulted, s.faultReason)) = some (true, some .protocolViolation) ∧
    see (.read 3) State.reset id = some State.reset := by decide

/-- B8, and the resumption of a held command (P3 at 20: the held SYNC runs on). -/
theorem test_read_mono_and_resume :
    see (.read 4095) { State.reset with cfg := { Config.exampleCfg with stereo := false } } (fun s => s.pcm.req) = some 4088 ∧
    see (.read 8) stuck (fun s => (s.held, s.pendingCycles, s.pcm.waitingRead, s.out)) =
      some (some .sync, 840, true, [.emit [0, 0, 0, 0, 0, 0, 0, 0]]) := by decide +kernel

/-- B9: the second of two Emits of 8 bytes, and then the block waits. -/
theorem test_emit :
    let s := { State.reset with
               cfg := { Config.exampleCfg with bufBytes := 8 }
               pcm := { buf := [0, 1, 2, 3], req := 8, waitingRead := false } }
    (appendFrame 1 (-2) s).out = [.emit [0, 1, 2, 3, 0x00, 0x01, 0xFF, 0xFE]] ∧
      (appendFrame 1 (-2) s).pcm = { buf := [], req := 0, waitingRead := true } := by decide

/-- B11: no stall and no frames below tier 2. -/
theorem test_no_stall_below_tier_two :
    see .sync silent (fun s => (s.held, s.pcm.fill, s.lastCycles)) = some (none, 0, 1000) := by decide +kernel

/-! ## Faults and reset (95_test_vectors.md 2.8, 2.9) -/

/-- G1, G2, G3. -/
theorem test_faults_of_commands :
    see .sync { running with lastCycles := 100, now := 50 } (fun s => (s.faultReason, s.lastCycles)) =
      some (some .timeReversal, 100) ∧
    see (.setmaxhpos 0) { running with now := 200 } (fun s => (s.faultReason, s.maxhpos)) = some (some .configError, 227) ∧
    see (.setsevt 0) { running with lastCycles := 100, now := 50 } (fun s => s.faultReason) = some (some .configError) := by
  decide

/-- G4: decode comes before the time check. -/
theorem test_illegal_word_step :
    seeStep { running with lastCycles := 100, inputs := [.register 0x70000000#32 50] } (fun s => (s.faultReason, s.inputs)) =
      some (some .illegalCommand, []) := by decide

/-- G5 and G6. -/
theorem test_faulted_block_is_deaf :
    see .intreqr { broken with now := 300 } (fun s => (s.out, s.lastCycles)) = some ([], 0) ∧
    see (.read 8) broken id = some broken := by decide

/-- G7 and Z4. -/
theorem test_reset_returns_from_fault :
    see .reset { broken with now := 300, adkcon := 1, cfgIn := Config.exampleRaw } id =
      some { State.reset with now := 300, lastCycles := 300 } := by decide +kernel

/-- G8, G9, G10. -/
theorem test_reset_checks :
    see .reset { running with cfgIn := { Config.exampleRaw with filter := .other } } (fun s => (s.faultReason, s.pcm.req)) =
      some (some .configError, 2048) ∧
    see .reset { running with cfgIn := { Config.exampleRaw with bufBytes := 6 } } (fun s => s.faultReason) =
      some (some .configError) ∧
    see .reset stuck (fun s => (s.held, s.pendingCycles)) = some (none, 0) := by decide +kernel

/-- Z1: RESET at 0 with R330's example configuration is `State.reset`. -/
theorem test_reset_is_reset : see .reset State.reset id = some State.reset := by decide +kernel

/-- Z3. -/
theorem test_sync_held_at_once :
    see .sync { State.reset with now := 1000 } id = some { stuck with held := some .sync } := by decide

/-- Two words of R101 run as the first instruction after reset, through the fetch. -/
theorem test_first_step_after_reset :
    seeStep (State.reset.withFetchWord 32 0x00A601AC) (fun s => (s.chan 0).per) = some 428 ∧
    seeStep (State.reset.withFetchWord 32 0x80000800) (fun s => s.pcm.req) = some 2048 := by decide

/-! ## Witnesses: a state that meets the hypotheses of each statement that has any -/

/-- The channel register writes, each with an operand at a bound of its range. -/
def channelCommands : List Instr :=
  [.aud0lch 0xFFFF, .aud0lcl 0xFFFF, .aud0len 0xFFFF, .aud0per 0xFFFF, .aud0vol 0xFFFF, .aud0dat 0xFFFF,
   .aud1lch 0, .aud1lcl 0, .aud1len 0, .aud1per 0, .aud1vol 0, .aud1dat 0,
   .aud2lch 1, .aud2lcl 1, .aud2len 1, .aud2per 1, .aud2vol 64, .aud2dat 1,
   .aud3lch 0x8000, .aud3lcl 0x8000, .aud3len 0x8000, .aud3per 0x8000, .aud3vol 63, .aud3dat 0x8000]

/-- The other register-port commands. -/
def controlCommands : List Instr :=
  [.dmacon 0xFFFF, .intreq 0x0780, .adkcon 0x7FFF, .dmaconr, .adkconr, .intreqr, .sync, .lineSync, .setled true,
   .setmaxhpos 1, .setmaxhpos 0xFFFF, .setsevt 1, .setsevt 0xFFFFFFF]

/-- Every register-port command, with an operand at a bound of its range. -/
def registerCommands : List Instr := channelCommands ++ controlCommands

/-- Channel 0 playing in `later`: it completes a transition while the command catches up. -/
def playing : State :=
  later.modChan 0 fun k =>
    { k with
      state := 2, per := 300, evtime := 40, vol := 63, dat := 0x4080, lc := 0x1000, pt := 0x1002, currentSample := 7,
      lastSample0 := 1 }

/-- Every register-port command completes in a state with time to run, and in one at its own time: the hypotheses of
AudLchSetsHighHalf, AudLclSetsLowHalfEven, AudLenSetsTheLatch, AudPerSetsThePeriod, AudVolSetsTheVolume,
AudDatStoresAndStarts, AdkconUpdatesBitsAndMasks, DmaconUpdatesBits, IntreqUpdatesRequestBits, ReadsAnswerTheRegister,
TimingCommandsSetTheirField and LineSyncServicesEveryChannel. -/
theorem witness_completes_playing : ∀ i ∈ registerCommands, completes i playing := by decide +kernel
theorem witness_completes_reset : ∀ i ∈ registerCommands, completes i State.reset := by decide +kernel

/-- AudVolSetsTheVolume: the two clauses of vol_rule. -/
theorem witness_vol_values :
    (63#7).toNat = (if (0xFFFF#16).getLsbD 6 then 63 else (0xFFFF#16).toNat % 64) ∧
    (32#7).toNat = (if (0x0020#16).getLsbD 6 then 63 else (0x0020#16).toNat % 64) := by decide

/-- AudDatStoresAndStarts: both branches occur. -/
theorem witness_dat_branches :
    ((caughtUp (.aud3dat 0) playing).chan 3).state = 0 ∧ (caughtUp (.aud3dat 0) playing).intreq.getLsbD 3 = false ∧
    ((caughtUp (.aud0dat 0) playing).chan 0).state ≠ 0 := by decide +kernel

/-- StepKeepsInvariant, StepNeverStops, OnlyLineSyncReadsMemory, BelowTierTwoEveryCommandCompletes: the invariant holds in
running, held, silent and playing states. -/
theorem witness_invariant :
    ∀ s ∈ [later, playing, stuck, silent, broken], State.Inv s := by decide +kernel

/-- StepKeepsInvariant: a step of such a state answers a next state. -/
theorem witness_step_keeps_invariant :
    (seeStep (playing.withFetchWord 32 0x20000000) fun s => s.held).isSome = true ∧
    State.Inv (playing.withFetchWord 32 0x20000000) := by decide +kernel

/-- BelowTierTwoEveryCommandCompletes. -/
theorem witness_below_tier_two :
    ∀ i ∈ registerCommands, i.port = .register ∧ i.wellFormed = true ∧ silent.cfg.produceSound.val < 2 ∧ accepts silent := by
  decide +kernel

/-- StepRunsTheDecodedCommand, a clause a line. -/
theorem witness_step_runs :
    (decodeOn .register 0x20000000#32 = .instr .sync ∧ later.held = none) ∧
    (decodeOn .control 0x90000000#32 = .instr .reset ∧ State.reset.held = none) ∧
    (decodeTableWord 32 0x500000E3 = some (.setmaxhpos 227) ∧ decodeTableWord 32 0x80000800 = some (.read 2048)) := by decide

/-- HeldCommandLeavesControlPortOpen: a register-port word and a host write stand before the READ. -/
theorem witness_held_port :
    stuck.held ≠ none ∧ (∀ x ∈ [Input.register 0 0, Input.hostWrite 0 0], x.isControl = false) ∧
      decodeOn .control 0x80000800#32 = .instr (.read 2048) := by decide

/-- IllegalWordOnlyFaults and FaultedBlockIgnoresAllButReset: an illegal word on each port, with no command held and, past a
waiting register-port word, with one held; in a listening, a faulted and an un-reset block. -/
theorem witness_illegal_word :
    decodeOn .register 0x70000000#32 = .rejected .reservedClass ∧ decodeOn .control 0x20000000#32 = .rejected .wrongPort ∧
      later.faulted = false ∧ later.awaitingReset = false ∧ later.held = none ∧ broken.faulted = true ∧ broken.held = none ∧
      { State.reset with awaitingReset := true }.awaitingReset = true ∧
      stuck.faulted = false ∧ stuck.awaitingReset = false ∧ stuck.held ≠ none ∧
      (∀ x ∈ [Input.register 0x20000000#32 0], x.isControl = false) ∧ { stuck with faulted := true }.held ≠ none := by decide

/-- The stalled block takes an illegal control-port word past the waiting SYNC, and a faulted one only takes it away. -/
theorem test_illegal_control_word_while_held :
    let s := { stuck with inputs := [.register 0x20000000#32 0, .control 0x20000000#32 5 Config.exampleRaw] }
    seeStep s (fun t => (t.faultReason, t.held, t.inputs)) =
      some (some .illegalCommand, some .sync, [.register 0x20000000#32 0]) ∧
    seeStep { s with faulted := true, faultReason := some .timeReversal } (fun t => (t.faultReason, t.inputs)) =
      some (some .timeReversal, [.register 0x20000000#32 0]) := by decide

/-- HostWriteReachesMemoryInOrder: the first and the last address. -/
theorem witness_host_write :
    let s : BitVec 32 → State := fun a => { State.reset with inputs := [.hostWrite a 0x55, .register 0x20000000#32 0] }
    (s 0).held = none ∧ Memory.wf (s 0).mem ∧
      (s 0).inputs = .hostWrite 0 0x55 :: [.register 0x20000000#32 0] ∧
      (s 0xFFFFFFFF).inputs = .hostWrite 0xFFFFFFFF 0x55 :: [.register 0x20000000#32 0] := by decide

/-- EarlierNowIsTimeReversal and ZeroIntervalIsConfigError: one cycle early. -/
theorem witness_time_reversal :
    let s := { running with lastCycles := 100, now := 99 }
    s.now < s.lastCycles ∧ s.faulted = false ∧ s.awaitingReset = false ∧ s.held = none ∧ (Instr.sync).port = .register ∧
      (Instr.sync).wellFormed = true := by decide

/-- ResetSetsEveryField and ValidConfigurationsAreTaken: a configuration of each kind, at the bounds of R331. -/
theorem witness_configurations :
    (loadCfg { Config.exampleRaw with bufBytes := 4088, maxhpos := 65535, sampleEvtime := 2 ^ 28 - 1 }).isSome = true ∧
    (loadCfg { Config.exampleRaw with stereo := false, bufBytes := 2, maxhpos := 1, sampleEvtime := 1, filter := .a1200e,
                                      filterFp := .binary32 }).isSome = true ∧
    loadCfg { Config.exampleRaw with bufBytes := 4092 } = none ∧ loadCfg { Config.exampleRaw with maxhpos := 0 } = none ∧
    loadCfg { Config.exampleRaw with sampleEvtime := 2 ^ 28 } = none := by decide +kernel

/-- ReadTakesItsRequest, a clause a line: the outstanding request, a count of 0, a count at the clamp, a held
command, which a READ of 4088 lets complete and a READ of 4 lets run to the next stall. -/
theorem witness_read :
    running.pcm.waitingRead = false ∧
    (State.reset.pcm.waitingRead = true ∧ min (3#16).toNat 4088 - min (3#16).toNat 4088 % 4 = 0) ∧
    (State.reset.held = none ∧ min (0xFFFF#16).toNat 4088 - min (0xFFFF#16).toNat 4088 % 4 ≠ 0) ∧
    (stuck.pcm.waitingRead = true ∧ stuck.held = some .sync ∧ stuck.faulted = false ∧ stuck.awaitingReset = false ∧
      State.Inv stuck ∧ (Instr.sync.port = .register ∧ Instr.sync.wellFormed = true)) ∧
    (let u : State := { stuck with pcm := { buf := [], req := 4088, waitingRead := false } }
     (drain (drainBound u) u).pendingCycles = 0) ∧
    (let u : State := { stuck with pcm := { buf := [], req := 4, waitingRead := false } }
     (drain (drainBound u) u).pendingCycles ≠ 0 ∧ stalled (drain (drainBound u) u) = true) := by decide +kernel

/-- PerRuleClamps: the two clamps' conditions. -/
theorem witness_per_clamps : State.reset.cfg.safetyClamp = true ∧ State.reset.cfg.fastTier.val < 3 := by decide

/-- NoTimePassedRunsNoIteration. -/
theorem witness_no_time :
    State.reset.now = State.reset.lastCycles ∧ State.reset.pendingCycles = 0 ∧ State.reset.held = none := by decide

/-- StalledPortHoldsTheCommand, both clauses, one cycle late. -/
theorem witness_stalled :
    let s := { State.reset with now := 1 }
    accepts s ∧ s.pendingCycles = 0 ∧ s.lastCycles < s.now ∧ s.pcm.waitingRead = true ∧ 2 ≤ s.cfg.produceSound.val ∧
      stuck.held ≠ none := by decide

/-- ExtraSyncChangesNothing: from `playing`, at 30 and at 100, and at 80 where a sample event falls, with a register write at
`t2`. -/
theorem witness_sync_twice :
    accepts { playing with now := 30 } ∧ (30#64 ≤ 100#64) ∧ see .sync { playing with now := 30 } (fun u => u.held) = some none ∧
    ((Instr.aud3dat 0x1234).port = .register ∧ (Instr.aud3dat 0x1234).wellFormed = true ∧ State.Inv playing) ∧
    accepts { playing with now := 80 } ∧ see .sync { playing with now := 80 } (fun u => u.held) = some none := by decide +kernel

/-- IterationFollowsItsRule, the progress clause: a state whose channel 0 has the nearest event, its others idle. -/
theorem witness_progress :
    (∀ c : ChanIdx, channelInv ((arm .sync playing).chan c)) ∧ clockInv (arm .sync playing) ∧
      (arm .sync playing).pendingCycles ≠ 0 := by decide +kernel

/-- HandlerLeavesOtherChannels: a neighbour above, and a channel that is none. -/
theorem witness_other_channels : (1 : ChanIdx) ≠ 0 ∧ (3 : ChanIdx) ≠ 0 ∧ (3 : ChanIdx).val ≠ (0 : ChanIdx).val + 1 := by decide

/-- StateOneArmsTheChannel, StateFivePlaysTheFirstByte, StateTwoPlaysTheLowByte, StateThreeStops,
StateThreePlaysTheNextWord and DefectStateBecomesIdle, on channel 3, its pointer even. -/
theorem witness_handlers :
    let s : BitVec 3 → State := fun st => State.reset.modChan 3 fun k => { k with state := st }
    (((s 1).chan 3).state = 1 ∧ ((s 1).chan 3).pt.getLsbD 0 = false) ∧ ((s 5).chan 3).state = 5 ∧ ((s 2).chan 3).state = 2 ∧
      (((s 3).chan 3).state = 3 ∧ ((s 3).chan 3).dmaen = false ∧ { s 3 with intreq := 0b1000 }.intreq.getLsbD 3 = true) ∧
      ¬(((s 3).chan 3).dmaen = false ∧ (s 3).intreq.getLsbD 3 = true) ∧
      (((s 6).chan 3).state ≠ 1 ∧ ((s 6).chan 3).state ≠ 2 ∧ ((s 6).chan 3).state ≠ 3 ∧ ((s 6).chan 3).state ≠ 5) := by decide

/-- LineServiceStartsIdleChannel and LineServiceSamplesEnableAndRefills, on channels 0 and 3; a refill from an even pointer. -/
theorem witness_line_service :
    let s := { State.reset with dmacon := 0x0208 }
    ((s.chan 3).state = 0 ∧ s.dmacon.getLsbD 9 = true ∧ s.dmacon.getLsbD 3 = true ∧ (s.chan 3).lc.getLsbD 0 = false) ∧
      (s.dmacon.getLsbD 9 && s.dmacon.getLsbD 0) = false ∧
      (¬((playing.chan 0).state = 0 ∧ (playing.dmacon.getLsbD 9 && playing.dmacon.getLsbD 0) = true) ∧
        (playing.chan 0).pt.getLsbD 0 = false) := by decide

/-- IntegerStrategiesFollowTheirRules and CubicFollowsItsRule: the bounds of `masked`, then the clauses at position 0, one a
line (the conditions on `fpTrunc` are met in witness_values). -/
theorem witness_positions :
    (-(2 ^ 31) ≤ (-2147483648 : Int) ∧ (2147483647 : Int) < 2 ^ 31) ∧
    ((voice 1 2 3 4 63 400 400).evtime.toNat % (voice 1 2 3 4 63 400 400).per.toNat = 0 ∧ (voice 1 2 3 4 63 400 400).per ≠ 0) ∧
    ((voice 1 2 3 4 63 80 80).evtime.toNat = (voice 1 2 3 4 63 80 80).per.toNat ∧ 80 ≤ (voice 1 2 3 4 63 80 80).per.toNat) ∧
    ((voice 1 2 3 4 63 79 79).evtime.toNat = (voice 1 2 3 4 63 79 79).per.toNat ∧ (voice 1 2 3 4 63 79 79).per.toNat < 80) ∧
    ((voice 1 2 3 4 63 79 0).evtime.toNat = 0 ∧ (voice 1 2 3 4 63 79 0).per.toNat < 80) := by decide

/-- MixStaysInRange: a channel whose event falls together with the sample event, under a strategy that is not CSPLINE. -/
theorem witness_mix :
    let s := playing.modChan 0 fun k => { k with evtime := 0 }
    (∀ c : ChanIdx, (s.chan c).per ≠ 0 ∧ (s.chan c).vol.toNat ≤ 63) ∧ masksInv s ∧ s.cfg.interp ≠ .cspline ∧
      (s.chan 0).state ≠ 0 := by decide

/-- SampleUsesPreTransitionState: an iteration with a sample event at tier 2, one below it, and one without. -/
theorem witness_sample_event :
    (let s := { arm .sync running with pendingCycles := 80 }
     (elapse (best s) s).nextSampleEvtime = 0 ∧ 2 ≤ s.cfg.produceSound.val) ∧
    (let s := { arm .sync silent with pendingCycles := 80 }
     (elapse (best s) s).nextSampleEvtime = 0 ∧ s.cfg.produceSound.val < 2) ∧
    (let s := { arm .sync running with pendingCycles := 79 }
     (elapse (best s) s).nextSampleEvtime ≠ 0) := by decide

/-- FilterInputIsExact, TopologiesFollowTheirRules: the largest inputs; RoundingIsNearestEven: a tie. -/
theorem witness_filter :
    (-(2 ^ 24) < (2 ^ 24 - 1 : Int) ∧ (2 ^ 24 - 1 : Int) < 2 ^ 24) ∧ (filterCfg .a1200).filter = .a1200 ∧
      2 * ((3 : Int) - 2 * roundHalfEven 3 2) ≠ 2 ∧ 2 * ((2 : Int) * roundHalfEven 3 2 - 3) = 2 ∧
      roundHalfEven 3 2 % 2 = 0 := by decide

/-- TopologiesFollowTheirRules, the conversion (and CubicFollowsItsRule's): a value in each range, and both bounds; RoundingIsNearestEven: a sum and a
difference that are zero, and that are not. -/
theorem witness_values :
    (32767 ≤ fpValue false 32767 0 ∧ fpValue true 32768 0 ≤ -32768) ∧
    (0 ≤ fpValue false 3 (-1) ∧ fpValue false 3 (-1) < 32767) ∧
    (-32768 < fpValue true 3 (-1) ∧ fpValue true 3 (-1) ≤ 0) ∧
    (fpValue false 3 0 + fpValue true 3 0 = 0 ∧ fpValue false 3 0 - fpValue true 3 0 ≠ 0) ∧
    (fpValue false 3 0 + fpValue false 1 2 ≠ 0 ∧ fpValue false 3 0 - fpValue false 3 0 = 0) := by
  norm_num [fpValue]

/-- R268 on halves: truncation toward zero, and the saturation from 32767. -/
theorem test_conversion :
    [toOutput (.fin false 3 (-1)), toOutput (.fin true 3 (-1)), toOutput (.fin false 65535 (-1)),
     toOutput (.fin true 65537 (-1)), toOutput .nan, toOutput (.inf true)] = [1, -1, 32767, -32768, 0, -32768] := by decide

/-- FrameIsBigEndian: the bounds of a sample. -/
theorem witness_frame : frame true (-32768) 32767 = [0x80, 0x00, 0x7F, 0xFF] := by decide

/-- EmitCarriesExactlyTheChunk: a frame that fills the chunk, and one that does not. -/
theorem witness_emit :
    let s : List Byte → State := fun b =>
      { State.reset with
        cfg := { Config.exampleCfg with bufBytes := 8 }, pcm := { buf := b, req := 8, waitingRead := false } }
    (cfgInv (s [0, 1, 2, 3]) ∧ pcmInv (s [0, 1, 2, 3]) ∧ ([0, 1, 2, 3] ++ frame true 1 2).length = min 8 8) ∧
      (cfgInv (s []) ∧ pcmInv (s []) ∧ ([] ++ frame true 1 2).length < min 8 8) := by decide

/-- NoCommandWritesMemory, RequestBitFallsOnlyByHost: a request bit that an INTREQ write clears, and one that a READ lets
a held INTREQ write clear. -/
theorem witness_request_falls :
    see (.intreq 0x0400) { running with intreq := 0b1000 } (fun t => t.intreq) = some 0b0000 ∧
    see (.read 0xFFFF) { stuck with intreq := 0b1000, held := some (.intreq 0x0400) } (fun t => t.intreq) = some 0b0000 := by
  decide +kernel

/-- OnlyLineSyncReadsMemory. -/
theorem witness_memory_unread :
    State.Inv playing ∧ playing.held ≠ some .lineSync ∧ (see .sync playing fun t => t.held) = some none := by decide +kernel

end Sys2Proof.Tests
end

section
/-! SUPPORT. Rounding to nearest, ties to even (R11): first to an integer, then the significand packed into the format, then
a ratio, and through it every operation on finite values. -/

namespace Sys2Proof.Machine

/-! ## Rounding to an integer -/

/-- `roundHalfEven` is within half a unit of the ratio, and even where it is exactly half a unit away. -/
theorem roundHalfEven_spec (n d : Nat) (hd : 0 < d) :
    2 * ((n : Int) - d * roundHalfEven n d) ≤ d ∧ 2 * ((d : Int) * roundHalfEven n d - n) ≤ d ∧
      ((2 * ((n : Int) - d * roundHalfEven n d) = d ∨ 2 * ((d : Int) * roundHalfEven n d - n) = d) →
        roundHalfEven n d % 2 = 0) := by
  have hn : (d : Int) * (n / d : Nat) + (n % d : Nat) = n := by exact_mod_cast Nat.div_add_mod n d
  have hr : n % d < d := Nat.mod_lt n hd
  unfold roundHalfEven
  split
  next hup =>
    have hstep : (d : Int) * (n / d + 1 : Nat) = d * (n / d : Nat) + d := by push_cast; ring
    rw [hstep]
    omega
  next hdown => omega

/-- `m` is an integer nearest to `y`, the even one of two. -/
def NearestEven (y : ℚ) (m : Nat) : Prop :=
  2 * |(m : ℚ) - y| ≤ 1 ∧ (2 * |(m : ℚ) - y| = 1 → m % 2 = 0)

theorem nearestEven_roundHalfEven (n d : Nat) (hd : 0 < d) : NearestEven ((n : ℚ) / d) (roundHalfEven n d) := by
  obtain ⟨hlo, hhi, htie⟩ := roundHalfEven_spec n d hd
  generalize roundHalfEven n d = m at hlo hhi htie ⊢
  have hdQ : (0 : ℚ) < d := by exact_mod_cast hd
  have hdist : 2 * |(m : ℚ) - n / d| * d = |((2 * ((d : Int) * m - n) : Int) : ℚ)| := by
    have hscale : ((2 * ((d : Int) * m - n) : Int) : ℚ) = 2 * ((m : ℚ) - n / d) * d := by
      push_cast
      field_simp
    rw [hscale, abs_mul, abs_mul, abs_two, abs_of_pos hdQ]
  have hle : |2 * ((d : Int) * m - n)| ≤ d := abs_le.2 ⟨by linarith, hhi⟩
  refine ⟨?_, fun heq => htie ?_⟩
  · rw [← mul_le_mul_iff_of_pos_right hdQ, hdist, one_mul]
    exact_mod_cast hle
  · rw [heq, one_mul] at hdist
    have habs : |2 * ((d : Int) * m - n)| = d := by exact_mod_cast hdist.symm
    rcases (abs_eq (by positivity)).1 habs with h | h
    · exact .inr h
    · exact .inl (by linarith)

namespace NearestEven

variable {y : ℚ} {m : Nat}

theorem le_add_half (h : NearestEven y m) : (m : ℚ) ≤ y + 1 / 2 := by
  linarith [h.1, le_abs_self ((m : ℚ) - y)]

theorem sub_half_le (h : NearestEven y m) : y - 1 / 2 ≤ m := by
  linarith [h.1, neg_abs_le ((m : ℚ) - y)]

/-- An integer that is not above `y` is not above its rounding. -/
theorem natCast_le (h : NearestEven y m) {N : Nat} (hN : (N : ℚ) ≤ y) : N ≤ m := by
  have : (N : ℚ) < m + 1 := by linarith [h.sub_half_le]
  exact Nat.lt_succ_iff.1 (by exact_mod_cast this)

/-- An integer above `y` is not below its rounding. -/
theorem le_natCast (h : NearestEven y m) {N : Nat} (hN : y < N) : m ≤ N := by
  have : (m : ℚ) < N + 1 := by linarith [h.le_add_half]
  exact Nat.lt_succ_iff.1 (by exact_mod_cast this)

end NearestEven

/-! ## Powers of two and the exponent of a ratio -/

theorem pow2_pos (k : Int) : 0 < pow2 k := Nat.two_pow_pos _

theorem pow2_div_pow2_neg (k : Int) : (pow2 k : ℚ) / pow2 (-k) = 2 ^ k := by
  unfold pow2
  rw [Nat.cast_pow, Nat.cast_pow, ← zpow_natCast, ← zpow_natCast, Nat.cast_ofNat, ← zpow_sub₀ two_ne_zero]
  congr 1
  omega

theorem pow2_of_nonneg {k : Int} (hk : 0 ≤ k) : (pow2 k : ℚ) = 2 ^ k := by
  rw [pow2, Nat.cast_pow, ← zpow_natCast, Int.toNat_of_nonneg hk, Nat.cast_ofNat]

/-- The model's scaling of a ratio by `2^k`, with the negative part of `k` put into the denominator. -/
theorem scaled_ratio (num den : Nat) (k : Int) :
    ((num * pow2 k : Nat) : ℚ) / (den * pow2 (-k) : Nat) = num / den * 2 ^ k := by
  rw [← pow2_div_pow2_neg, Nat.cast_mul, Nat.cast_mul, mul_div_mul_comm]

theorem two_zpow_log2_le (n : Nat) (hn : n ≠ 0) : (2 : ℚ) ^ (Nat.log2 n : Int) ≤ n := by
  rw [zpow_natCast]
  exact_mod_cast Nat.log2_self_le hn

theorem lt_two_zpow_log2_add_one (n : Nat) : (n : ℚ) < 2 ^ ((Nat.log2 n : Int) + 1) := by
  rw [← Nat.cast_add_one, zpow_natCast]
  exact_mod_cast Nat.lt_log2_self

/-- `ratioLog2` is the binary exponent of the ratio. -/
theorem ratioLog2_spec (num den : Nat) (hn : num ≠ 0) (hd : 0 < den) :
    (2 : ℚ) ^ ratioLog2 num den ≤ num / den ∧ (num : ℚ) / den < 2 ^ (ratioLog2 num den + 1) := by
  have hdQ : (0 : ℚ) < den := by exact_mod_cast hd
  have htest : num * pow2 ((Nat.log2 den : Int) - Nat.log2 num) < den * pow2 ((Nat.log2 num : Int) - Nat.log2 den) ↔
      (num : ℚ) / den < 2 ^ ((Nat.log2 num : Int) - Nat.log2 den) := by
    have hpos : (0 : ℚ) < pow2 ((Nat.log2 den : Int) - Nat.log2 num) := by exact_mod_cast pow2_pos _
    rw [← pow2_div_pow2_neg, neg_sub, div_lt_div_iff₀ hdQ hpos, mul_comm (pow2 _ : ℚ)]
    norm_cast
  have hlow : (2 : ℚ) ^ ((Nat.log2 num : Int) - Nat.log2 den - 1) ≤ num / den := by
    rw [sub_sub, zpow_sub₀ two_ne_zero]
    exact div_le_div₀ (Nat.cast_nonneg _) (two_zpow_log2_le num hn) hdQ (lt_two_zpow_log2_add_one den).le
  have hhigh : (num : ℚ) / den < 2 ^ ((Nat.log2 num : Int) - Nat.log2 den + 1) := by
    rw [sub_add_eq_add_sub, zpow_sub₀ two_ne_zero]
    exact div_lt_div₀ (lt_two_zpow_log2_add_one num) (two_zpow_log2_le den hd.ne') (by positivity) (by positivity)
  unfold ratioLog2
  split
  next hlt => exact ⟨hlow, by simpa using htest.1 hlt⟩
  next hge => exact ⟨not_lt.1 (mt htest.2 hge), hhigh⟩

/-! ## The formats -/

theorem fpMinExp_le_fpMaxExp (f : FpFormat) : fpMinExp f ≤ fpMaxExp f := by cases f <;> decide

theorem two_pow_fpPrecision (f : FpFormat) : 2 ^ fpPrecision f = 2 * 2 ^ (fpPrecision f - 1) := by cases f <;> rfl

/-- The least magnitude that rounds to infinity, in units of the largest finite value's last place. -/
theorem overflow_bound (f : FpFormat) :
    ((2 : ℚ) ^ (fpPrecision f + 1) - 1) * 2 ^ (fpMaxExp f - 1) =
      (2 * 2 ^ (fpPrecision f - 1) - 1 / 2) * 2 ^ fpMaxExp f := by
  have hprec : (2 : ℚ) ^ fpPrecision f = 2 * 2 ^ (fpPrecision f - 1) := by exact_mod_cast two_pow_fpPrecision f
  rw [pow_succ, hprec, zpow_sub_one₀ two_ne_zero]
  ring

/-! ## Packing -/

/-- The bounds of `NearestEven`, in units of the last place at the exponent `q`. -/
theorem NearestEven.scaled {y : ℚ} {m : Nat} (h : NearestEven y m) (q : Int) :
    2 * |(m : ℚ) * 2 ^ q - y * 2 ^ q| ≤ 2 ^ q ∧ (2 * |(m : ℚ) * 2 ^ q - y * 2 ^ q| = 2 ^ q → m % 2 = 0) := by
  have hpos : (0 : ℚ) < 2 ^ q := zpow_pos two_pos q
  have hdist : 2 * |(m : ℚ) * 2 ^ q - y * 2 ^ q| = 2 * |(m : ℚ) - y| * 2 ^ q := by
    rw [← sub_mul, abs_mul, abs_of_pos hpos, mul_assoc]
  rw [hdist]
  exact ⟨mul_le_of_le_one_left hpos.le h.1, fun htie => h.2 (by simpa [hpos.ne'] using htie)⟩

/-- From the overflow bound on, infinity is the rounding. -/
theorem rounds_inf {f : FpFormat} {neg : Bool} {y : ℚ} {q : Int} (hq : fpMaxExp f ≤ q)
    (hy : 2 * 2 ^ (fpPrecision f - 1) - 1 / 2 ≤ y ∨ fpMaxExp f < q ∧ 2 ^ (fpPrecision f - 1) ≤ y) :
    rounds f neg (y * 2 ^ q) (.inf neg) := by
  refine ⟨rfl, ?_⟩
  rw [overflow_bound]
  have hP : (1 : ℚ) ≤ 2 ^ (fpPrecision f - 1) := one_le_pow₀ one_le_two
  have hM : (0 : ℚ) < 2 ^ fpMaxExp f := zpow_pos two_pos _
  rcases hy with hy | ⟨hlt, hy⟩
  · have hpow : (2 : ℚ) ^ fpMaxExp f ≤ 2 ^ q := zpow_le_zpow_right₀ one_le_two hq
    exact mul_le_mul hy hpow hM.le (by linarith)
  · have hpow : (2 : ℚ) ^ fpMaxExp f * 2 ≤ 2 ^ q := by
      rw [← zpow_add_one₀ two_ne_zero]
      exact zpow_le_zpow_right₀ one_le_two hlt
    calc (2 * 2 ^ (fpPrecision f - 1) - 1 / 2) * (2 : ℚ) ^ fpMaxExp f
        ≤ 2 ^ (fpPrecision f - 1) * (2 ^ fpMaxExp f * 2) := by linarith
      _ ≤ y * 2 ^ q := mul_le_mul hy hpow (by positivity) (by linarith)

section

variable {f : FpFormat} {y : ℚ} {m : Nat} {q : Int} (neg : Bool)

/-- A significand that rounds to 0 is one at the subnormals' exponent, and the result is zero. -/
theorem rounds_fin_zero (hm : NearestEven y 0) (hnorm : 2 ^ (fpPrecision f - 1) ≤ y ∨ q = fpMinExp f) :
    rounds f neg (y * 2 ^ q) (.fin neg 0 0) := by
  have hhalf : y ≤ 1 / 2 := by simpa using hm.sub_half_le
  have hP : (1 : ℚ) ≤ 2 ^ (fpPrecision f - 1) := one_le_pow₀ one_le_two
  obtain rfl : q = fpMinExp f := hnorm.resolve_left (by linarith)
  refine ⟨rfl, .inl ⟨rfl, rfl⟩, fun _ => ?_, fun h => absurd rfl h⟩
  rw [zpow_sub_one₀ two_ne_zero, mul_comm y]
  exact mul_le_mul_of_nonneg_left (hhalf.trans_eq (one_div 2)) (zpow_pos two_pos _).le

/-- A carry out of the significand gives the power of two at the next exponent, a quarter of whose unit the rounding moved
at the most: no tie is left. -/
theorem rounds_fin_carry (hm : NearestEven y (2 ^ fpPrecision f)) (hq : fpMinExp f ≤ q) (hmax : q + 1 ≤ fpMaxExp f) :
    rounds f neg (y * 2 ^ q) (.fin neg (2 ^ (fpPrecision f - 1)) (q + 1)) := by
  have hpos : (0 : ℚ) < 2 ^ q := zpow_pos two_pos q
  have hPnat : 0 < 2 ^ (fpPrecision f - 1) := Nat.two_pow_pos _
  have hprec := two_pow_fpPrecision f
  have hsucc : (2 : ℚ) ^ (q + 1) = 2 * 2 ^ q := by rw [zpow_add_one₀ two_ne_zero, mul_comm]
  have hval : ((2 ^ (fpPrecision f - 1) : Nat) : ℚ) * 2 ^ (q + 1) = (2 ^ fpPrecision f : Nat) * 2 ^ q := by
    rw [hsucc, hprec]
    push_cast
    ring
  have hclose := (hm.scaled q).1
  rw [← hval] at hclose
  refine ⟨rfl, .inr ⟨hPnat, by omega, by omega, hmax⟩, fun h => absurd h hPnat.ne',
    fun _ => ⟨.inl le_rfl, by linarith, fun htie => by linarith, fun _ => .inr ?_⟩⟩
  linarith [le_abs_self (((2 ^ (fpPrecision f - 1) : Nat) : ℚ) * 2 ^ (q + 1) - y * 2 ^ q)]

/-- Without a carry the significand is the result's; at full precision a power of two was rounded down to, if at all. -/
theorem rounds_fin_of_lt (hm : NearestEven y m) (h0 : m ≠ 0) (hlt : m < 2 ^ fpPrecision f)
    (hnorm : 2 ^ (fpPrecision f - 1) ≤ y ∨ q = fpMinExp f) (hq : fpMinExp f ≤ q) (hmax : q ≤ fpMaxExp f) :
    rounds f neg (y * 2 ^ q) (.fin neg m q) := by
  have hpos : (0 : ℚ) < 2 ^ q := zpow_pos two_pos q
  obtain ⟨hclose, heven⟩ := hm.scaled q
  refine ⟨rfl, .inr ⟨Nat.pos_of_ne_zero h0, hlt, hq, hmax⟩, fun h => absurd h h0, fun _ => ⟨?_, hclose, heven, ?_⟩⟩
  · exact hnorm.imp_left fun h => hm.natCast_le (by exact_mod_cast h)
  · rintro rfl
    refine hnorm.symm.imp_right fun h => ?_
    have hdown : ((2 ^ (fpPrecision f - 1) : Nat) : ℚ) * 2 ^ q ≤ y * 2 ^ q :=
      mul_le_mul_of_nonneg_right (by exact_mod_cast h) hpos.le
    linarith

/-- A significand rounded to nearest even at an exponent of its format packs to the rounding of the value. -/
theorem rounds_packFp (hm : NearestEven y m) (hlt : y < 2 ^ fpPrecision f)
    (hnorm : 2 ^ (fpPrecision f - 1) ≤ y ∨ q = fpMinExp f) (hq : fpMinExp f ≤ q) :
    rounds f neg (y * 2 ^ q) (packFp f neg m q) := by
  have hle : m ≤ 2 ^ fpPrecision f := hm.le_natCast (by exact_mod_cast hlt)
  have hbounds := fpMinExp_le_fpMaxExp f
  unfold packFp
  split_ifs with h0 hcarry hover hover
  · subst h0
    exact rounds_fin_zero neg hm hnorm
  · have hylo := hm.le_add_half
    rw [hcarry, two_pow_fpPrecision] at hylo
    push_cast at hylo
    exact rounds_inf (by omega) (.inl (by linarith))
  · subst hcarry
    exact rounds_fin_carry neg hm hq (not_lt.1 hover)
  · exact rounds_inf hover.le (.inr ⟨hover, hnorm.resolve_right (by omega)⟩)
  · exact rounds_fin_of_lt neg hm h0 (lt_of_le_of_ne hle hcarry) hnorm hq (not_lt.1 hover)

end

/-! ## Rounding a ratio -/

/-- The scaled ratio has the format's precision, or fewer bits at the subnormals' exponent only. -/
theorem roundExp_spec (f : FpFormat) (num den : Nat) (e : Int) (hn : num ≠ 0) (hd : 0 < den) :
    (num : ℚ) / den * 2 ^ (e - roundExp f num den e) < 2 ^ fpPrecision f ∧
      (2 ^ (fpPrecision f - 1) ≤ (num : ℚ) / den * 2 ^ (e - roundExp f num den e) ∨
        roundExp f num den e = fpMinExp f) := by
  obtain ⟨hlow, hhigh⟩ := ratioLog2_spec num den hn hd
  have hprec : fpPrecision f = fpPrecision f - 1 + 1 := by cases f <;> rfl
  have hpos : (0 : ℚ) < 2 ^ (e - roundExp f num den e) := zpow_pos two_pos _
  have hexp : ratioLog2 num den + (e - roundExp f num den e) ≤ (fpPrecision f - 1 : Nat) := by
    unfold roundExp
    omega
  constructor
  · calc (num : ℚ) / den * 2 ^ (e - roundExp f num den e)
        < 2 ^ (ratioLog2 num den + 1) * 2 ^ (e - roundExp f num den e) := mul_lt_mul_of_pos_right hhigh hpos
      _ = 2 ^ (ratioLog2 num den + 1 + (e - roundExp f num den e)) := (zpow_add₀ two_ne_zero _ _).symm
      _ ≤ 2 ^ (fpPrecision f : Int) := zpow_le_zpow_right₀ one_le_two (by omega)
      _ = 2 ^ fpPrecision f := zpow_natCast _ _
  · rcases max_choice (e + ratioLog2 num den - (fpPrecision f - 1 : Nat)) (fpMinExp f) with hmax | hmax
    · left
      calc (2 : ℚ) ^ (fpPrecision f - 1)
          = 2 ^ (ratioLog2 num den + (e - roundExp f num den e)) := by
            rw [← zpow_natCast, roundExp, hmax]
            congr 1
            omega
        _ = 2 ^ ratioLog2 num den * 2 ^ (e - roundExp f num den e) := zpow_add₀ two_ne_zero _ _
        _ ≤ num / den * 2 ^ (e - roundExp f num den e) := mul_le_mul_of_nonneg_right hlow hpos.le
    · exact .inr hmax

/-- Zero rounds to zero. -/
theorem rounds_zero (f : FpFormat) (neg : Bool) : rounds f neg 0 (.fin neg 0 0) :=
  ⟨rfl, .inl ⟨rfl, rfl⟩, fun _ => (zpow_pos two_pos _).le, fun h => absurd rfl h⟩

theorem rounds_roundRatio (f : FpFormat) (neg : Bool) (num den : Nat) (e : Int) (hd : 0 < den) :
    rounds f neg ((num : ℚ) / den * 2 ^ e) (roundRatio f neg num den e) := by
  by_cases hn : num = 0
  · simpa [roundRatio, hn] using rounds_zero f neg
  · obtain ⟨hlt, hnorm⟩ := roundExp_spec f num den e hn hd
    have hnear := nearestEven_roundHalfEven (num * pow2 (e - roundExp f num den e))
      (den * pow2 (-(e - roundExp f num den e))) (Nat.mul_pos hd (pow2_pos _))
    rw [scaled_ratio, neg_sub] at hnear
    have hpack := rounds_packFp neg hnear hlt hnorm (le_max_right _ _)
    rw [mul_assoc, ← zpow_add₀ two_ne_zero, sub_add_cancel] at hpack
    rwa [roundRatio, if_neg hn]

/-! ## The operations -/

theorem rounds_fpOfInt (f : FpFormat) (n : Int) : rounds f (decide (n < 0)) |(n : ℚ)| (fpOfInt f n) := by
  simpa [fpOfInt, Nat.cast_natAbs] using rounds_roundRatio f (decide (n < 0)) n.natAbs 1 0 one_pos

theorem rounds_fpOfRatio (f : FpFormat) (neg : Bool) (num den : Nat) (hd : 0 < den) :
    rounds f neg ((num : ℚ) / den) (fpOfRatio f neg num den) := by
  simpa [fpOfRatio] using rounds_roundRatio f neg num den 0 hd

theorem rounds_fpConvert (f : FpFormat) (neg : Bool) (m : Nat) (e : Int) :
    rounds f neg ((m : ℚ) * 2 ^ e) (fpConvert f (.fin neg m e)) := by
  simpa [fpConvert] using rounds_roundRatio f neg m 1 e one_pos

theorem rounds_fpMul (f : FpFormat) (n1 n2 : Bool) (m1 m2 : Nat) (e1 e2 : Int) :
    rounds f (n1 != n2) ((m1 : ℚ) * 2 ^ e1 * (m2 * 2 ^ e2)) (fpMul f (.fin n1 m1 e1) (.fin n2 m2 e2)) := by
  have h := rounds_roundRatio f (n1 != n2) (m1 * m2) 1 (e1 + e2) one_pos
  rwa [Nat.cast_one, div_one, Nat.cast_mul, zpow_add₀ two_ne_zero, mul_mul_mul_comm] at h

theorem rounds_fpDiv (f : FpFormat) (n1 n2 : Bool) (m1 m2 : Nat) (e1 e2 : Int) (h0 : m2 ≠ 0) :
    rounds f (n1 != n2) ((m1 : ℚ) * 2 ^ e1 / (m2 * 2 ^ e2)) (fpDiv f (.fin n1 m1 e1) (.fin n2 m2 e2)) := by
  have h := rounds_roundRatio f (n1 != n2) m1 m2 (e1 - e2) (Nat.pos_of_ne_zero h0)
  rw [zpow_sub₀ two_ne_zero, div_mul_div_comm] at h
  simpa [fpDiv, h0] using h

/-- Bringing a significand down to a smaller exponent keeps its value. -/
theorem alignTo_value (neg : Bool) (m : Nat) {e e0 : Int} (he : e0 ≤ e) :
    (alignTo neg m e e0 : ℚ) * 2 ^ e0 = fpValue neg m e := by
  have hmag : ((m * pow2 (e - e0) : Nat) : ℚ) * 2 ^ e0 = m * 2 ^ e := by
    rw [Nat.cast_mul, pow2_of_nonneg (sub_nonneg.2 he), mul_assoc, ← zpow_add₀ two_ne_zero, sub_add_cancel]
  cases neg with
  | false => exact hmag
  | true =>
    calc (alignTo true m e e0 : ℚ) * 2 ^ e0 = -(((m * pow2 (e - e0) : Nat) : ℚ) * 2 ^ e0) := by
          rw [← neg_mul]
          simp [alignTo]
      _ = fpValue true m e := by rw [hmag]; rfl

/-- A nonzero exact sum is rounded with its own sign. -/
theorem rounds_roundSum {f : FpFormat} {bothNeg : Bool} {v : Int} {e : Int} {x : ℚ} (hx : (v : ℚ) * 2 ^ e = x)
    (h0 : x ≠ 0) : rounds f (decide (x < 0)) |x| (roundSum f bothNeg v e) := by
  subst hx
  have hpos : (0 : ℚ) < 2 ^ e := zpow_pos two_pos e
  have hv : v ≠ 0 := by
    rintro rfl
    simp at h0
  have hsign : ((v : ℚ) * 2 ^ e < 0) ↔ v < 0 := by simp [mul_neg_iff, hpos, hpos.not_gt]
  have h := rounds_roundRatio f (decide (v < 0)) v.natAbs 1 e one_pos
  rw [Nat.cast_one, div_one, Nat.cast_natAbs, Int.cast_abs] at h
  simpa [roundSum, hv, hsign, abs_mul, abs_of_pos hpos] using h

/-- An exact sum that is zero takes the sign that both terms share. -/
theorem roundSum_of_value_zero {f : FpFormat} {bothNeg : Bool} {v : Int} {e : Int} (hx : (v : ℚ) * 2 ^ e = 0) :
    roundSum f bothNeg v e = .fin bothNeg 0 0 := by
  have hv : v = 0 := by exact_mod_cast (mul_eq_zero.1 hx).resolve_right (zpow_pos two_pos e).ne'
  exact if_pos hv

/-- The aligned significands add to the exact sum. -/
theorem alignTo_add_value (n1 n2 : Bool) (m1 m2 : Nat) (e1 e2 : Int) :
    ((alignTo n1 m1 e1 (min e1 e2) + alignTo n2 m2 e2 (min e1 e2) : Int) : ℚ) * 2 ^ min e1 e2 =
      fpValue n1 m1 e1 + fpValue n2 m2 e2 := by
  rw [Int.cast_add, add_mul, alignTo_value n1 m1 (min_le_left _ _), alignTo_value n2 m2 (min_le_right _ _)]

theorem rounds_fpAdd (f : FpFormat) (n1 n2 : Bool) (m1 m2 : Nat) (e1 e2 : Int)
    (h0 : fpValue n1 m1 e1 + fpValue n2 m2 e2 ≠ 0) :
    rounds f (decide (fpValue n1 m1 e1 + fpValue n2 m2 e2 < 0)) |fpValue n1 m1 e1 + fpValue n2 m2 e2|
      (fpAdd f (.fin n1 m1 e1) (.fin n2 m2 e2)) :=
  rounds_roundSum (alignTo_add_value n1 n2 m1 m2 e1 e2) h0

theorem fpAdd_of_sum_zero (f : FpFormat) (n1 n2 : Bool) (m1 m2 : Nat) (e1 e2 : Int)
    (h0 : fpValue n1 m1 e1 + fpValue n2 m2 e2 = 0) :
    fpAdd f (.fin n1 m1 e1) (.fin n2 m2 e2) = .fin (n1 && n2) 0 0 :=
  roundSum_of_value_zero ((alignTo_add_value n1 n2 m1 m2 e1 e2).trans h0)

theorem fpValue_not (neg : Bool) (m : Nat) (e : Int) : fpValue (!neg) m e = -fpValue neg m e := by
  cases neg <;> simp [fpValue]

/-- Subtraction adds the negated value. -/
theorem fpValue_sub (n1 n2 : Bool) (m1 m2 : Nat) (e1 e2 : Int) :
    fpValue n1 m1 e1 - fpValue n2 m2 e2 = fpValue n1 m1 e1 + fpValue (!n2) m2 e2 := by
  rw [fpValue_not, sub_eq_add_neg]

/-- Settles O52: every operation on finite values is `roundRatio` of its exact result, and `roundRatio` packs the nearest
even significand at the exponent `ratioLog2` gives. -/
theorem roundingIsNearestEven : Obligations.RoundingIsNearestEven := by
  refine ⟨roundHalfEven_spec, rounds_roundRatio, rounds_fpOfInt, rounds_fpOfRatio, rounds_fpConvert, ?_⟩
  intro f n1 n2 m1 m2 e1 e2 a b sum dif
  have hdif : dif = fpValue n1 m1 e1 + fpValue (!n2) m2 e2 := fpValue_sub n1 n2 m1 m2 e1 e2
  refine ⟨rounds_fpAdd f n1 n2 m1 m2 e1 e2, fpAdd_of_sum_zero f n1 n2 m1 m2 e1 e2, ?_, ?_,
    rounds_fpMul f n1 n2 m1 m2 e1 e2, rounds_fpDiv f n1 n2 m1 m2 e1 e2⟩
  · rw [hdif]
    exact rounds_fpAdd f n1 (!n2) m1 m2 e1 e2
  · rw [hdif]
    exact fpAdd_of_sum_zero f n1 (!n2) m1 m2 e1 e2

end Sys2Proof.Machine
end

section
/-! SUPPORT. Every step keeps the invariant of R55, and the state after reset meets it. The invariant is cut by what each
operation touches: one channel record, the records that an iteration has dispatched so far, the buffer, and the block as a
whole but for the held command, whose catch-up is under way in between. -/

namespace Sys2Proof.Machine

/-! ## One channel record -/

/-- What every handler keeps of a channel record, in state 1 too; `m` is the mask R45 gives it. -/
structure ChannelSound (m : BitVec 32) (k : Channel) : Prop where
  per_ne : k.per ≠ 0
  lc_even : k.lc.getLsbD 0 = false
  pt_even : k.pt.getLsbD 0 = false
  vol_le : k.vol.toNat ≤ 63
  mask_eq : k.adkMask = m

/-- A sound record in a state that R31 allows between commands; its countdown may have run out. -/
structure ChannelReady (m : BitVec 32) (k : Channel) : Prop extends ChannelSound m k where
  states : k.state = 0 ∨ k.state = 5 ∨ k.state = 2 ∨ k.state = 3

/-- No event of the channel is due (R201). -/
def ChannelSettled (k : Channel) : Prop := k.state = 0 ∨ k.evtime ≠ 0

theorem channelInv_iff {m : BitVec 32} {k : Channel} :
    channelInv k ∧ k.adkMask = m ↔ ChannelReady m k ∧ ChannelSettled k := by
  constructor
  · rintro ⟨⟨hper, hlc, hpt, hvol, hst⟩, hm⟩
    exact ⟨⟨⟨hper, hlc, hpt, hvol, hm⟩, hst.imp id And.left⟩, hst.imp id And.right⟩
  · rintro ⟨⟨⟨hper, hlc, hpt, hvol, hm⟩, hst⟩, hev⟩
    refine ⟨⟨hper, hlc, hpt, hvol, ?_⟩, hm⟩
    rcases hst with h0 | hst
    · exact .inl h0
    · exact hev.imp id (⟨hst, ·⟩)

theorem add_two_even {x : BitVec 32} (h : x.getLsbD 0 = false) : (x + 2).getLsbD 0 = false := by
  have h2 : (2 : BitVec 32).toNat = 2 := rfl
  simp only [BitVec.getLsbD, Nat.testBit_zero, decide_eq_false_iff_not, BitVec.toNat_add, h2] at h ⊢
  omega

theorem append_getLsbD_zero (x y : BitVec 16) : (x ++ y : BitVec 32).getLsbD 0 = y.getLsbD 0 := by
  rw [BitVec.getLsbD_append]
  rfl

theorem extractLow_even {x : BitVec 32} (h : x.getLsbD 0 = false) : (x.extractLsb' 0 16).getLsbD 0 = false := by
  rw [BitVec.getLsbD_extractLsb', Nat.zero_add, h, Bool.and_false]

theorem setWidth_ne_zero {x : BitVec 16} (h : x ≠ 0) : x.setWidth 32 ≠ 0 := by
  bv_omega

theorem ofNat_ne_zero {w n : Nat} (hpos : 1 ≤ n) (hlt : n < 2 ^ w) : BitVec.ofNat w n ≠ 0 := by
  intro h
  have h0 : (BitVec.ofNat w n).toNat = 0 := by rw [h]; exact BitVec.toNat_zero
  rw [BitVec.toNat_ofNat, Nat.mod_eq_of_lt hlt] at h0
  omega

theorem perRule_ne_zero (s : State) (v : Word) : perRule s v ≠ 0 := by
  have hv := v.isLt
  have hmax := s.maxhpos.isLt
  intro h
  have h0 : (perRule s v).toNat = 0 := congrArg BitVec.toNat h
  unfold perRule Config.periodMax halfLine at h0
  simp only [BitVec.toNat_ofNat] at h0
  split_ifs at h0 <;> omega

theorem ChannelSound.soundOverride {m : BitVec 32} {k : Channel} (h : ChannelSound m k) (s : State) :
    ChannelSound m (soundOverride s k) := by
  unfold Machine.soundOverride
  split
  · exact { h with per_ne := (by decide : (65535 : BitVec 16) ≠ 0) }
  · exact h

/-- `k'` is `k` but for a new period or volume, inside its range where `k`'s is: all that attachment can do to the next
channel (R164, R165). -/
def Retuned (k k' : Channel) : Prop :=
  ∃ p v, k' = { k with per := p, vol := v } ∧ (k.per ≠ 0 → p ≠ 0) ∧ (k.vol.toNat ≤ 63 → v.toNat ≤ 63)

theorem Retuned.refl (k : Channel) : Retuned k k := ⟨k.per, k.vol, rfl, id, id⟩

theorem Retuned.trans {k k' k'' : Channel} (h : Retuned k k') (h' : Retuned k' k'') : Retuned k k'' := by
  obtain ⟨_, _, rfl, hp, hv⟩ := h
  obtain ⟨p, v, rfl, hp', hv'⟩ := h'
  exact ⟨p, v, rfl, hp' ∘ hp, hv' ∘ hv⟩

theorem Retuned.ready {m : BitVec 32} {k k' : Channel} (h : Retuned k k') (hk : ChannelReady m k) : ChannelReady m k' := by
  obtain ⟨p, v, rfl, hp, hv⟩ := h
  exact { hk with per_ne := hp hk.per_ne, vol_le := hv hk.vol_le }

theorem Retuned.settled {k k' : Channel} (h : Retuned k k') (hk : ChannelSettled k) : ChannelSettled k' := by
  obtain ⟨p, v, rfl, -, -⟩ := h
  exact hk

/-! ## What a handler does to the other channels -/

/-- `t` is `s` but for the request bits, channel `c`'s record, and other channels' periods and volumes: no defect is
met. -/
structure ActsOn (c : ChanIdx) (s t : State) : Prop where
  frame : ∃ (q : Quad Channel) (i : BitVec 4), t = { s with ch := q, intreq := i }
  others : ∀ d : ChanIdx, d ≠ c → Retuned (s.chan d) (t.chan d)

namespace ActsOn

variable {c : ChanIdx} {s t u : State}

theorem refl (c : ChanIdx) (s : State) : ActsOn c s s := ⟨⟨s.ch, s.intreq, rfl⟩, fun _ _ => .refl _⟩

theorem trans (h : ActsOn c s t) (h' : ActsOn c t u) : ActsOn c s u := by
  refine ⟨?_, fun d hd => (h.others d hd).trans (h'.others d hd)⟩
  obtain ⟨_, _, rfl⟩ := h.frame
  obtain ⟨q, i, rfl⟩ := h'.frame
  exact ⟨q, i, rfl⟩

end ActsOn

theorem modChan_actsOn (c : ChanIdx) (s : State) (f : Channel → Channel) : ActsOn c s (s.modChan c f) :=
  ⟨⟨_, s.intreq, rfl⟩, fun d hd => by rw [modChan_chan_of_ne s f hd]; exact .refl _⟩

theorem raiseIrq_actsOn (c : ChanIdx) (s : State) : ActsOn c s (raiseIrq c s) :=
  ⟨⟨s.ch, _, rfl⟩, fun _ _ => .refl _⟩

theorem raiseIrqIf_actsOn (b : Bool) (c : ChanIdx) (s : State) : ActsOn c s (raiseIrqIf b c s) := by
  unfold raiseIrqIf
  split
  · exact raiseIrq_actsOn c s
  · exact .refl c s

/-- Changing another channel's period and volume acts on `c` in the sense of `ActsOn` and leaves `c`'s own record. -/
theorem modChan_retuned {c d : ChanIdx} (hd : d ≠ c) (s : State) (f : Channel → Channel) (hf : ∀ k, Retuned k (f k)) :
    ActsOn c s (s.modChan d f) ∧ (s.modChan d f).chan c = s.chan c := by
  refine ⟨⟨⟨_, s.intreq, rfl⟩, fun e _ => ?_⟩, modChan_chan_of_ne s f hd.symm⟩
  rw [modChan_chan]
  split
  · subst e
    exact hf _
  · exact .refl _

theorem attachPer_actsOn (c : ChanIdx) (v : Word) (s : State) :
    ActsOn c s (attachPer c v s) ∧ (attachPer c v s).chan c = s.chan c := by
  have hf (k : Channel) : Retuned k { k with per := perRule s v } := ⟨_, k.vol, rfl, fun _ => perRule_ne_zero s v, id⟩
  unfold attachPer
  split
  · exact modChan_retuned (by decide) s _ hf
  · exact modChan_retuned (by decide) s _ hf
  · exact modChan_retuned (by decide) s _ hf
  · exact ⟨.refl _ s, rfl⟩

theorem attachVol_actsOn (c : ChanIdx) (v : Word) (s : State) :
    ActsOn c s (attachVol c v s) ∧ (attachVol c v s).chan c = s.chan c := by
  have hf (k : Channel) : Retuned k { k with vol := volRule v } := ⟨k.per, _, rfl, id, fun _ => volRule_le v⟩
  unfold attachVol
  split
  · exact modChan_retuned (by decide) s _ hf
  · exact modChan_retuned (by decide) s _ hf
  · exact modChan_retuned (by decide) s _ hf
  · exact ⟨.refl _ s, rfl⟩

theorem handler1_actsOn (c : ChanIdx) (s : State) : ActsOn c s (handler1 c s) :=
  (raiseIrq_actsOn c s).trans (modChan_actsOn c _ _)

theorem handler5_actsOn (c : ChanIdx) (s : State) : ActsOn c s (handler5 c s) := modChan_actsOn c s _

theorem handler2_actsOn (c : ChanIdx) (s : State) : ActsOn c s (handler2 c s) := by
  have h : ActsOn c s (advance2 c s) := modChan_actsOn c s _
  unfold handler2
  split
  · exact h.trans (((raiseIrqIf_actsOn _ c _).trans (modChan_actsOn c _ _)).trans (attachPer_actsOn c _ _).1)
  · exact h

theorem handler3_actsOn (c : ChanIdx) (s : State) : ActsOn c s (handler3 c s) := by
  have h : ActsOn c s ((raiseIrqIf (irq3 s c) c s).modChan c (continueChannel s c)) :=
    (raiseIrqIf_actsOn _ c s).trans (modChan_actsOn c _ _)
  unfold handler3
  split
  · exact modChan_actsOn c s _
  · dsimp only
    split
    · exact h.trans (attachVol_actsOn c _ _).1
    · exact h

/-! ## What a handler makes of its own channel -/

/-- The next interval is a positive period, in each state a handler leaves (R163, R164, R165). -/
theorem ChannelSound.startInterval_settled {m : BitVec 32} {k : Channel} (h : ChannelSound m k) :
    (startInterval k).evtime ≠ 0 := setWidth_ne_zero h.per_ne

theorem handler1_ready {m : BitVec 32} {c : ChanIdx} {s : State} (h : ChannelSound m (s.chan c)) (hmax : s.maxhpos ≠ 0) :
    ChannelReady m ((handler1 c s).chan c) ∧ ChannelSettled ((handler1 c s).chan c) := by
  unfold handler1
  rw [modChan_chan_self]
  exact ⟨{ h with pt_even := add_two_even h.pt_even, states := .inr (.inl rfl) }, .inr (setWidth_ne_zero hmax)⟩

theorem handler5_ready {m : BitVec 32} {c : ChanIdx} {s : State} (h : ChannelSound m (s.chan c)) :
    ChannelReady m ((handler5 c s).chan c) ∧ ChannelSettled ((handler5 c s).chan c) := by
  have ho := h.soundOverride s
  unfold handler5
  rw [modChan_chan_self]
  exact ⟨{ ho with states := .inr (.inr (.inl rfl)) }, .inr ho.startInterval_settled⟩

theorem handler2_ready {m : BitVec 32} {c : ChanIdx} {s : State} (h : ChannelSound m (s.chan c)) :
    ChannelReady m ((handler2 c s).chan c) ∧ ChannelSettled ((handler2 c s).chan c) := by
  have ho := h.soundOverride s
  have hadv : ChannelReady m ((advance2 c s).chan c) ∧ ChannelSettled ((advance2 c s).chan c) := by
    unfold advance2
    rw [modChan_chan_self]
    exact ⟨{ ho with states := .inr (.inr (.inr rfl)) }, .inr ho.startInterval_settled⟩
  unfold handler2
  split
  · unfold periodAttach
    rw [(attachPer_actsOn c _ _).2, modChan_chan_self, raiseIrqIf_chan]
    exact ⟨{ hadv.1 with }, hadv.2⟩
  · exact hadv

theorem handler3_ready {m : BitVec 32} {c : ChanIdx} {s : State} (h : ChannelSound m (s.chan c)) :
    ChannelReady m ((handler3 c s).chan c) ∧ ChannelSettled ((handler3 c s).chan c) := by
  have ho := h.soundOverride s
  have hgo : ChannelReady m (continueChannel s c (s.chan c)) ∧ ChannelSettled (continueChannel s c (s.chan c)) :=
    ⟨{ ho with states := .inr (.inr (.inl rfl)) }, .inr ho.startInterval_settled⟩
  unfold handler3
  split
  · rw [modChan_chan_self]
    exact ⟨{ ho with states := .inl rfl }, .inl rfl⟩
  · dsimp only
    split
    · rw [(attachVol_actsOn c _ _).2, modChan_chan_self, raiseIrqIf_chan]
      exact hgo
    · rw [modChan_chan_self, raiseIrqIf_chan]
      exact hgo

/-- An event of an active channel meets no defect, and leaves its channel with a new interval or idle (R169). -/
theorem advanceChannel_ready {m : BitVec 32} {c : ChanIdx} {s : State} (h : ChannelReady m (s.chan c))
    (hact : (s.chan c).state ≠ 0) :
    ActsOn c s (advanceChannel c s) ∧ ChannelReady m ((advanceChannel c s).chan c) ∧
      ChannelSettled ((advanceChannel c s).chan c) := by
  have hs := h.toChannelSound
  rcases h.states with h0 | h5 | h2 | h3
  · exact absurd h0 hact
  · have he : advanceChannel c s = handler5 c s := by simp [advanceChannel, h5]
    rw [he]
    exact ⟨handler5_actsOn c s, handler5_ready hs⟩
  · have he : advanceChannel c s = handler2 c s := by simp [advanceChannel, h2]
    rw [he]
    exact ⟨handler2_actsOn c s, handler2_ready hs⟩
  · have he : advanceChannel c s = handler3 c s := by simp [advanceChannel, h3]
    rw [he]
    exact ⟨handler3_actsOn c s, handler3_ready hs⟩

/-! ## The four channels while an iteration dispatches them -/

/-- The channels in the middle of an iteration: every record is ready, and the first `n` have no event due any more. -/
structure DispatchedTo (n : Nat) (s : State) : Prop where
  ready : ∀ c : ChanIdx, ChannelReady (adkMaskOf s.adkcon c) (s.chan c)
  settled : ∀ c : ChanIdx, c.val < n → ChannelSettled (s.chan c)
  maxhpos : s.maxhpos ≠ 0
  noDefect : s.defectSeen = false

namespace DispatchedTo

variable {c : ChanIdx} {s t : State} {n : Nat}

/-- With every channel dispatched the records meet the invariant. -/
theorem channelInv (h : DispatchedTo 4 s) (c : ChanIdx) :
    Machine.channelInv (s.chan c) ∧ (s.chan c).adkMask = adkMaskOf s.adkcon c :=
  channelInv_iff.mpr ⟨h.ready c, h.settled c c.isLt⟩

/-- An operation on channel `c` that leaves it ready and settled settles it, and unsettles no other. -/
theorem actsOn (h : DispatchedTo n s) (ht : ActsOn c s t) (hr : ChannelReady (adkMaskOf s.adkcon c) (t.chan c))
    (hs : ChannelSettled (t.chan c)) {n' : Nat} (hn : ∀ d : ChanIdx, d.val < n' → d = c ∨ d.val < n) :
    DispatchedTo n' t := by
  have hready (d : ChanIdx) : ChannelReady (adkMaskOf s.adkcon d) (t.chan d) := by
    by_cases hd : d = c
    · exact hd ▸ hr
    · exact (ht.others d hd).ready (h.ready d)
  have hsettled (d : ChanIdx) (hlt : d.val < n') : ChannelSettled (t.chan d) := by
    by_cases hd : d = c
    · exact hd ▸ hs
    · exact (ht.others d hd).settled (h.settled d ((hn d hlt).resolve_left hd))
  obtain ⟨_, _, rfl⟩ := ht.frame
  exact ⟨hready, hsettled, h.maxhpos, h.noDefect⟩

theorem modChan (h : DispatchedTo n s) {f : Channel → Channel}
    (hr : ChannelReady (adkMaskOf s.adkcon c) (f (s.chan c))) (hs : ChannelSettled (f (s.chan c))) :
    DispatchedTo n (s.modChan c f) :=
  h.actsOn (modChan_actsOn c s f) (by rwa [modChan_chan_self]) (by rwa [modChan_chan_self]) fun _ => .inr

/-- One channel's turn in the dispatch (R204). -/
theorem dispatchChannel (h : DispatchedTo c.val s) : DispatchedTo (c.val + 1) (dispatchChannel c s) := by
  have hn (d : ChanIdx) (hd : d.val < c.val + 1) : d = c ∨ d.val < c.val :=
    (Nat.lt_succ_iff_lt_or_eq.mp hd).symm.imp Fin.ext id
  unfold Machine.dispatchChannel
  split
  next hdue =>
    have hact : (s.chan c).state ≠ 0 := by simpa [Channel.active] using hdue.1
    obtain ⟨hon, hr, hs⟩ := advanceChannel_ready (h.ready c) hact
    exact h.actsOn hon hr hs hn
  next hnot =>
    have hs : ChannelSettled (s.chan c) := by
      by_cases h0 : (s.chan c).state = 0
      · exact .inl h0
      · exact .inr fun hev => hnot ⟨by simpa [Channel.active] using h0, hev⟩
    exact h.actsOn (.refl c s) (h.ready c) hs hn

theorem dispatchAll (h : DispatchedTo 0 s) : DispatchedTo 4 (dispatchAll s) :=
  have h1 : DispatchedTo 1 _ := dispatchChannel (c := 0) h
  have h2 : DispatchedTo 2 _ := dispatchChannel (c := 1) h1
  have h3 : DispatchedTo 3 _ := dispatchChannel (c := 2) h2
  dispatchChannel (c := 3) h3

theorem elapse (h : DispatchedTo n s) (k : Nat) : DispatchedTo 0 (elapse k s) := by
  refine ⟨fun c => ?_, fun _ hc => absurd hc (Nat.not_lt_zero _), h.maxhpos, h.noDefect⟩
  have hc := h.ready c
  rw [elapse_chan]
  unfold elapseChannel
  split
  · exact { hc with }
  · exact hc

/-- What the output stage changes is no part of the channels. -/
theorem outputFrame (h : DispatchedTo n s) (ht : OutputFrame s t) : DispatchedTo n t := by
  obtain ⟨_, _, _, _, _, rfl⟩ := ht
  exact { h with }

/-! ## The effects on channels -/

theorem dmaStart (h : DispatchedTo 4 s) (c : ChanIdx) : DispatchedTo 4 (dmaStart c s) := by
  unfold Machine.dmaStart
  split
  · have he : advanceChannel c (s.modChan c startChannel) = handler1 c (s.modChan c startChannel) := by
      simp [advanceChannel, startChannel]
    have hstart : ChannelSound (adkMaskOf s.adkcon c) ((s.modChan c startChannel).chan c) := by
      have hc := h.ready c
      rw [modChan_chan_self]
      exact { hc with pt_even := hc.lc_even }
    obtain ⟨hr, hs⟩ := handler1_ready hstart h.maxhpos
    rw [he]
    exact h.actsOn ((modChan_actsOn c s _).trans (handler1_actsOn c _)) hr hs fun _ => .inr
  · exact h

theorem refill (h : DispatchedTo 4 s) (c : ChanIdx) : DispatchedTo 4 (refill c s) := by
  have hc := h.ready c
  have hs := h.settled c c.isLt
  unfold Machine.refill
  refine h.modChan ?_ ?_ <;> dsimp only <;> split
  · exact { hc with pt_even := hc.lc_even }
  · exact { hc with pt_even := add_two_even hc.pt_even }
  · exact hs
  · exact hs

theorem lineService (h : DispatchedTo 4 s) (c : ChanIdx) : DispatchedTo 4 (lineService c s) := by
  have hstart := h.dmaStart c
  have hena : DispatchedTo 4 ((Machine.dmaStart c s).modChan c fun k => { k with dmaen := ena s c }) :=
    have hc := hstart.ready c
    hstart.modChan { hc with } (hstart.settled c c.isLt)
  unfold Machine.lineService
  dsimp only
  split
  · exact hena.refill c
  · exact hena

theorem writeDat (h : DispatchedTo 4 s) (c : ChanIdx) (data : Word) : DispatchedTo 4 (writeDat c data s) := by
  have hc := h.ready c
  have he : (Machine.writeDat c data s).chan c = datChannel (datStarts c s) data (s.chan c) := by
    unfold Machine.writeDat
    rw [modChan_chan_self, raiseIrqIf_chan]
  have hon : ActsOn c s (Machine.writeDat c data s) := (raiseIrqIf_actsOn _ c s).trans (modChan_actsOn c _ _)
  refine h.actsOn hon ?_ ?_ fun _ => .inr <;> rw [he]
  · refine { hc with states := ?_ }
    cases datStarts c s
    · exact hc.states
    · exact .inr (.inr (.inl rfl))
  · exact .inr hc.startInterval_settled

theorem effectAdkcon (h : DispatchedTo n s) (data : Word) : DispatchedTo n (effectAdkcon data s) := by
  have hch (c : ChanIdx) : (Machine.effectAdkcon data s).chan c =
      { s.chan c with adkMask := adkMaskOf (Machine.effectAdkcon data s).adkcon c } := by
    fin_cases c <;> rfl
  refine ⟨fun c => ?_, fun c hc => ?_, h.maxhpos, h.noDefect⟩ <;> rw [hch]
  · have hc := h.ready c
    exact { hc with mask_eq := rfl }
  · exact h.settled c hc

end DispatchedTo

/-! ## The buffer -/

/-- A frame appended to a buffer that is not full either completes a chunk, which is sent, or leaves it short of one
(R281, R282): both are whole frames. -/
theorem appendFrame_pcmInv {s : State} (hcfg : cfgInv s) (hpcm : pcmInv s) (hw : s.pcm.waitingRead = false) (l r : Int) :
    pcmInv (appendFrame l r s) := by
  obtain ⟨hbytes, -, -⟩ := hcfg
  obtain ⟨hfill, hreq, hmax, -, hroom⟩ := hpcm
  have hroom : s.pcm.fill < chunk s := hroom hw
  have hlen : (s.pcm.buf ++ frame s.cfg.stereo l r).length = s.pcm.fill + frameBytes s.cfg.stereo := by
    rw [List.length_append, frame_length]; rfl
  have hframes : frameBytes s.cfg.stereo ∣ s.pcm.fill + frameBytes s.cfg.stereo :=
    Nat.dvd_add (Nat.dvd_of_mod_eq_zero hfill) (dvd_refl _)
  unfold appendFrame
  rcases flushCheck_cases { s with pcm := { s.pcm with buf := s.pcm.buf ++ frame s.cfg.stereo l r } } with
    ⟨-, he⟩ | ⟨hshort, he⟩ <;> rw [he]
  · have hleft : (s.pcm.req - (s.pcm.fill + frameBytes s.cfg.stereo)) % frameBytes s.cfg.stereo = 0 :=
      Nat.mod_eq_zero_of_dvd (Nat.dvd_sub (Nat.dvd_of_mod_eq_zero hreq) hframes)
    simp only [pcmInv, PcmBuffer.fill, hlen, hw] at hleft ⊢
    refine ⟨Nat.zero_mod _, hleft, by omega, ?_, ?_⟩ <;> split <;> simp <;> omega
  · have hshort : s.pcm.fill + frameBytes s.cfg.stereo < chunk s := by rwa [← hlen]
    refine ⟨?_, hreq, hmax, fun hwait => ?_, fun _ => ?_⟩ <;> simp only [PcmBuffer.fill, hlen]
    · exact Nat.mod_eq_zero_of_dvd hframes
    · exact absurd (hw.symm.trans hwait) (by decide)
    · exact hshort

theorem produceFrame_pcmInv {s : State} (hcfg : cfgInv s) (hpcm : pcmInv s) (hw : s.pcm.waitingRead = false) :
    pcmInv (produceFrame s) := by
  unfold produceFrame
  refine appendFrame_pcmInv ?_ ?_ ?_ _ _
  exacts [hcfg, hpcm, hw]

/-- Off the stall the sample event keeps the buffer's invariant: a frame is produced only into a request (R283). -/
theorem sampleEvent_pcmInv {s : State} (hcfg : cfgInv s) (hpcm : pcmInv s) (hst : stalled s = false) :
    pcmInv (sampleEvent s) := by
  rcases sampleEvent_cases s with ⟨hprod, he⟩ | ⟨-, he⟩ <;> rw [he]
  · have hw : s.pcm.waitingRead = false := by simpa [stalled, hprod] using hst
    exact produceFrame_pcmInv (s := { s with nextSampleEvtime := s.sampleEvtime }) hcfg hpcm hw
  · exact hpcm

theorem dispatchSample_pcmInv {s : State} (hcfg : cfgInv s) (hpcm : pcmInv s) (hst : stalled s = false) :
    pcmInv (dispatchSample s) := by
  unfold dispatchSample
  split
  · exact sampleEvent_pcmInv hcfg hpcm hst
  · exact hpcm

theorem dispatchSample_nextSampleEvtime {s : State} (h : s.sampleEvtime ≠ 0) :
    (dispatchSample s).nextSampleEvtime ≠ 0 := by
  unfold dispatchSample
  split
  · rwa [sampleEvent_nextSampleEvtime]
  · assumption

/-! ## The block but for the held command -/

/-- The invariant without `heldInv`: a catch-up keeps it from one iteration to the next, with its command still held. -/
structure BlockInv (s : State) : Prop where
  taken : s.awaitingReset = false
  chans : DispatchedTo 4 s
  sampleEvtime : s.sampleEvtime ≠ 0
  nextSampleEvtime : s.nextSampleEvtime ≠ 0
  cfg : cfgInv s
  pcm : pcmInv s
  fault : s.faulted = true ↔ s.faultReason ≠ none
  mem : Memory.wf s.mem

theorem inv_iff {s : State} : State.Inv s ↔ BlockInv s ∧ heldInv s := by
  constructor
  · rintro ⟨htaken, hchan, hmask, ⟨hmax, hsev, hnext⟩, hcfg, hpcm, hheld, ⟨hfault, hdef⟩, hmem⟩
    have hc (c : ChanIdx) := channelInv_iff.mp ⟨hchan c, hmask c⟩
    exact ⟨⟨htaken, ⟨fun c => (hc c).1, fun c _ => (hc c).2, hmax, hdef⟩, hsev, hnext, hcfg, hpcm, hfault, hmem⟩, hheld⟩
  · rintro ⟨h, hheld⟩
    exact ⟨h.taken, fun c => (h.chans.channelInv c).1, fun c => (h.chans.channelInv c).2,
      ⟨h.chans.maxhpos, h.sampleEvtime, h.nextSampleEvtime⟩, h.cfg, h.pcm, hheld, ⟨h.fault, h.chans.noDefect⟩, h.mem⟩

theorem BlockInv.chanFrame {s t : State} (h : BlockInv s) (ht : ChanFrame s t) (hc : DispatchedTo 4 t) : BlockInv t := by
  obtain ⟨_, _, _, rfl⟩ := ht
  exact { h with chans := hc }

/-- An iteration off the stall keeps the block's invariant (R201). -/
theorem BlockInv.iteration {s : State} (h : BlockInv s) (hst : stalled s = false) : BlockInv (iteration s) := by
  have hout := dispatchSample_frame (elapse (best s) s)
  have hchans : DispatchedTo 0 (dispatchSample (elapse (best s) s)) := (h.chans.elapse _).outputFrame hout
  have hpcm : pcmInv (dispatchSample (elapse (best s) s)) := dispatchSample_pcmInv h.cfg h.pcm hst
  have hnext := dispatchSample_nextSampleEvtime (s := elapse (best s) s) h.sampleEvtime
  unfold Machine.iteration
  generalize dispatchSample (elapse (best s) s) = u at hout hchans hpcm hnext ⊢
  obtain ⟨q, i, d, ht⟩ := dispatchAll_frame u
  have hall := hchans.dispatchAll
  rw [ht] at hall ⊢
  obtain ⟨_, _, _, _, _, rfl⟩ := hout
  exact { h with chans := hall, nextSampleEvtime := hnext, pcm := hpcm }

theorem BlockInv.drain {s : State} (h : BlockInv s) (n : Nat) : BlockInv (drain n s) :=
  drain_keeps BlockInv (fun _ _ hst ht => ht.iteration hst) n s h

/-! ## A command's effect -/

/-- The invariant of a block that holds no command, as a command's effect meets it (R120). -/
structure AtRest (s : State) : Prop extends BlockInv s where
  held : s.held = none
  pending : s.pendingCycles = 0

namespace AtRest

variable {s t : State}

theorem inv (h : AtRest s) : State.Inv s :=
  inv_iff.mpr ⟨h.toBlockInv, fun _ => h.pending, fun hne => absurd h.held hne, by rw [h.held]; rfl⟩

theorem chanFrame (h : AtRest s) (ht : ChanFrame s t) (hc : DispatchedTo 4 t) : AtRest t := by
  refine ⟨h.toBlockInv.chanFrame ht hc, ?_, ?_⟩ <;> obtain ⟨_, _, _, rfl⟩ := ht
  · exact h.held
  · exact h.pending

/-- A write to one channel record that keeps the state and the countdown. -/
theorem modChan (h : AtRest s) (c : ChanIdx) {f : Channel → Channel}
    (hf : ∀ m k, ChannelReady m k → ChannelReady m (f k)) (hs : ∀ k, ChannelSettled k → ChannelSettled (f k)) :
    AtRest (s.modChan c f) :=
  h.chanFrame (modChan_frame s c f) (h.chans.modChan (hf _ _ (h.chans.ready c)) (hs _ (h.chans.settled c c.isLt)))

theorem writeLch (h : AtRest s) (c : ChanIdx) (data : Word) : AtRest (writeLch c data s) :=
  h.modChan c (fun _ _ hk => { hk with lc_even := (append_getLsbD_zero ..).trans (extractLow_even hk.lc_even) }) fun _ => id

theorem writeLcl (h : AtRest s) (c : ChanIdx) (data : Word) : AtRest (writeLcl c data s) :=
  h.modChan c (fun _ _ hk => { hk with lc_even := (append_getLsbD_zero ..).trans (lclRule_even data) }) fun _ => id

theorem writeLen (h : AtRest s) (c : ChanIdx) (data : Word) : AtRest (writeLen c data s) :=
  h.modChan c (fun _ _ hk => { hk with }) fun _ => id

theorem writePer (h : AtRest s) (c : ChanIdx) (data : Word) : AtRest (writePer c data s) :=
  h.modChan c (fun _ _ hk => { hk with per_ne := perRule_ne_zero s data }) fun _ => id

theorem writeVol (h : AtRest s) (c : ChanIdx) (data : Word) : AtRest (writeVol c data s) :=
  h.modChan c (fun _ _ hk => { hk with vol_le := volRule_le data }) fun _ => id

theorem writeDat (h : AtRest s) (c : ChanIdx) (data : Word) : AtRest (writeDat c data s) :=
  h.chanFrame (writeDat_frame c data s) (h.chans.writeDat c data)

theorem effectLineSync (h : AtRest s) : AtRest (effectLineSync s) :=
  h.chanFrame (effectLineSync_frame s)
    ((((h.chans.lineService 0).lineService 1).lineService 2).lineService 3)

theorem effectSetmaxhpos (h : AtRest s) {value : BitVec 16} (hv : value ≠ 0) : AtRest (effectSetmaxhpos value s) :=
  { h with chans := { h.chans with maxhpos := hv } }

theorem effectSetsevt (h : AtRest s) {value : BitVec 28} (hv : value ≠ 0) : AtRest (effectSetsevt value s) :=
  { h with chans := { h.chans with }, sampleEvtime := hv }

/-- A state that differs from one at rest in DMACON, the request bits, the LED and what was sent is at rest. -/
theorem control (h : AtRest s) (dmacon : BitVec 15) (intreq : BitVec 4) (led : Bool) (out : List OutEvent) :
    AtRest { s with dmacon := dmacon, intreq := intreq, led := led, out := out } :=
  { h with chans := { h.chans with } }

/-- The effect of every command that has passed its value check keeps the invariant (R96, R120). -/
theorem effect (h : AtRest s) (i : Instr) (hwf : i.wellFormed = true) : AtRest (effect i s) := by
  cases i with
  | aud0lch data | aud1lch data | aud2lch data | aud3lch data => exact h.writeLch _ data
  | aud0lcl data | aud1lcl data | aud2lcl data | aud3lcl data => exact h.writeLcl _ data
  | aud0len data | aud1len data | aud2len data | aud3len data => exact h.writeLen _ data
  | aud0per data | aud1per data | aud2per data | aud3per data => exact h.writePer _ data
  | aud0vol data | aud1vol data | aud2vol data | aud3vol data => exact h.writeVol _ data
  | aud0dat data | aud1dat data | aud2dat data | aud3dat data => exact h.writeDat _ data
  | dmacon data => exact h.control _ s.intreq s.led s.out
  | intreq data => exact h.control s.dmacon _ s.led s.out
  | adkcon data => exact { h with chans := h.chans.effectAdkcon data }
  | dmaconr | adkconr | intreqr => exact h.control s.dmacon s.intreq s.led _
  | sync | read _ | reset => exact h
  | lineSync => exact h.effectLineSync
  | setled led => exact h.control s.dmacon s.intreq led s.out
  | setmaxhpos value => exact h.effectSetmaxhpos (by simpa [Instr.wellFormed] using hwf)
  | setsevt value => exact h.effectSetsevt (by simpa [Instr.wellFormed] using hwf)

end AtRest

/-! ## The catch-up, the commands and the step -/

/-- A catch-up that answers a state has completed its command, or holds it at the stall (R200, R283). -/
theorem settle_inv {s t : State} {cmd : Instr} (h : BlockInv s) (hh : s.held = some cmd) (hport : cmd.port = .register)
    (hwf : cmd.wellFormed = true) (hn : settle s = .next t) : State.Inv t := by
  have hd := h.drain (drainBound s)
  rcases settle_next hn with ⟨hp, -⟩ | ⟨hp, hst, -⟩
  · have hrest : AtRest { Machine.drain (drainBound s) s with held := none } :=
      { hd with chans := { hd.chans with }, held := rfl, pending := hp }
    rw [settle_completed hh hp] at hn
    cases hn
    exact (hrest.effect cmd hwf).inv
  · obtain ⟨he, hheld⟩ := settle_stalled hh hp hst
    rw [he] at hn
    cases hn
    refine inv_iff.mpr ⟨hd, fun hnone => ?_, fun _ => ⟨hst, hp⟩, ?_⟩
    · rw [hheld] at hnone
      cases hnone
    · simp [hheld, hport, hwf]

theorem takeFault_inv {s : State} (h : State.Inv s) (f : FaultReason) : State.Inv (takeFault f s) := by
  obtain ⟨hb, hheld⟩ := inv_iff.mp h
  have hfault : (takeFault f s).faulted = true ↔ (takeFault f s).faultReason ≠ none := by simp [takeFault]
  exact inv_iff.mpr ⟨{ hb with chans := { hb.chans with }, fault := hfault }, hheld⟩

theorem illegalCommand_inv {s : State} (h : State.Inv s) : State.Inv (illegalCommand s) := by
  unfold illegalCommand
  split
  · exact h
  · exact takeFault_inv h _

/-- Every register-port command is the shared register command, its value checked against R92's domain (R96). -/
theorem exec_of_register {i : Instr} (hport : i.port = .register) (s : State) :
    exec i s = registerCommand i i.wellFormed s := by
  cases i with
  | read _ | reset => cases hport
  | _ => rfl

theorem registerCommand_inv {cmd : Instr} {s t : State} (h : State.Inv s) (hport : cmd.port = .register)
    (hn : registerCommand cmd cmd.wellFormed s = .next t) : State.Inv t := by
  rcases registerCommand_next hn with ⟨-, rfl⟩ | ⟨-, rfl⟩ | ⟨-, rfl⟩ | ⟨-, rfl⟩ | ⟨-, -, hwf, -, hsettle⟩
  · exact h
  · exact h
  · exact takeFault_inv h _
  · exact takeFault_inv h _
  · obtain ⟨hb, -⟩ := inv_iff.mp h
    have harm : BlockInv (arm cmd s) := { hb with chans := { hb.chans with } }
    exact settle_inv harm rfl hport hwf hsettle

/-- A request of at least one frame opens the empty buffer of a waiting block (R285). -/
theorem BlockInv.acceptRead {s : State} (h : BlockInv s) (hw : s.pcm.waitingRead = true) {n : Word}
    (hn : readCount s.cfg.stereo n ≠ 0) : BlockInv (acceptRead (readCount s.cfg.stereo n) s) := by
  obtain ⟨hbytes, -, -⟩ := h.cfg
  obtain ⟨hfill, -, -, hwait, -⟩ := h.pcm
  obtain ⟨hempty, -⟩ := hwait hw
  obtain ⟨hmod, -, hmax⟩ := readCount_spec s.cfg.stereo n
  have hroom : s.pcm.fill < min s.cfg.bufBytes (readCount s.cfg.stereo n) := by omega
  exact { h with chans := { h.chans with }, pcm := ⟨hfill, hmod, hmax, fun hf => (nomatch hf), fun _ => hroom⟩ }

theorem execRead_inv {n : Word} {s t : State} (h : State.Inv s) (hn : execRead n s = .next t) : State.Inv t := by
  obtain ⟨hb, hpend, -, hall⟩ := inv_iff.mp h
  rcases execRead_next hn with ⟨-, rfl⟩ | ⟨-, rfl⟩ | ⟨-, rfl⟩ | ⟨-, hw, hcount, hheld⟩
  · exact h
  · exact takeFault_inv h _
  · exact h
  · have hread := hb.acceptRead hw hcount
    rcases hheld with ⟨hnone, rfl⟩ | ⟨hsome, hsettle⟩
    · exact AtRest.inv { hread with held := hnone, pending := hpend hnone }
    · obtain ⟨cmd, hcmd⟩ := Option.ne_none_iff_exists'.mp hsome
      have hok : cmd.port = .register ∧ cmd.wellFormed = true := by simpa [hcmd] using hall
      exact settle_inv hread hcmd hok.1 hok.2 hsettle

/-- The reset state of a configuration that R331 takes meets the invariant (R332). -/
theorem afterReset_inv {cfg : Cfg} {s : State} (now : BitVec 64) (hmax : cfg.maxhpos ≠ 0) (hsev : cfg.sampleEvtime ≠ 0)
    (hcfg : cfgInv { s with cfg := cfg }) (hmem : Memory.wf s.mem) : State.Inv (afterReset now cfg s) := by
  have hchan (c : ChanIdx) : (afterReset now cfg s).chan c = Channel.reset := by fin_cases c <;> rfl
  have hmask (c : ChanIdx) : Channel.reset.adkMask = adkMaskOf 0 c := by fin_cases c <;> decide
  have hchans : DispatchedTo 4 (afterReset now cfg s) := by
    refine ⟨fun c => ?_, fun c _ => ?_, hmax, rfl⟩ <;> rw [hchan]
    · exact ⟨⟨by decide, rfl, rfl, by decide, hmask c⟩, .inl rfl⟩
    · exact .inl rfl
  have hpcm : pcmInv (afterReset now cfg s) :=
    ⟨Nat.zero_mod _, Nat.zero_mod _, Nat.zero_le _, fun _ => ⟨rfl, rfl⟩, fun hf => (nomatch hf)⟩
  exact AtRest.inv ⟨⟨rfl, hchans, hsev, hsev, hcfg, hpcm, by simp [afterReset], hmem⟩, rfl, rfl⟩

theorem execReset_inv {s t : State} (h : State.Inv s) (hn : execReset s = .next t) : State.Inv t := by
  obtain ⟨hb, -⟩ := inv_iff.mp h
  rcases execReset_next s with ⟨cfg, hload, he⟩ | ⟨-, he⟩ <;> rw [he] at hn <;> cases hn
  · obtain ⟨i, f, fp, -, -, -, hranges, -, rfl⟩ := loadCfg_some hload
    simp only [rangesValid, decide_eq_true_eq] at hranges
    obtain ⟨hmax1, hmax2, hsev1, hsev2, -, -, hbytes⟩ := hranges
    exact afterReset_inv _ (ofNat_ne_zero hmax1 (by omega)) (ofNat_ne_zero hsev1 hsev2) hbytes hb.mem
  · exact takeFault_inv h _

theorem exec_inv {i : Instr} {s t : State} (h : State.Inv s) (hn : exec i s = .next t) : State.Inv t := by
  cases hport : i.port with
  | register =>
    rw [exec_of_register hport] at hn
    exact registerCommand_inv h hport hn
  | control =>
    cases i with
    | read n => exact execRead_inv h hn
    | reset => exact execReset_inv h hn
    | _ => cases hport

/-- What a fetch leaves keeps the invariant: a host write keeps the memory's canonical form, a latch touches the
environment alone. -/
theorem fetch_inv {s : State} (h : State.Inv s) :
    (∀ t, fetch s = .written t → State.Inv t) ∧ ∀ p w t, fetch s = .command p w t → State.Inv t := by
  obtain ⟨hb, hheld⟩ := inv_iff.mp h
  rcases fetch_cases s with he | ⟨a, b, l, he⟩ | ⟨_, _, l, now, cfg, he⟩ <;> rw [he]
  · exact ⟨fun _ ht => (nomatch ht), fun _ _ _ ht => (nomatch ht)⟩
  · refine ⟨fun _ ht => ?_, fun _ _ _ ht => (nomatch ht)⟩
    cases ht
    exact inv_iff.mpr ⟨{ hb with chans := { hb.chans with }, mem := Memory.write_wf b hb.mem a.isLt }, hheld⟩
  · refine ⟨fun _ ht => (nomatch ht), fun _ _ _ ht => ?_⟩
    cases ht
    exact h

/-- Settles O59: a step is a fetch, then nothing, a refused word or a command, and each keeps the invariant. -/
theorem stepKeepsInvariant : Obligations.StepKeepsInvariant := by
  intro s t h hn
  obtain ⟨hwritten, hcommand⟩ := fetch_inv h
  rcases step_next hn with ⟨-, rfl⟩ | ⟨_, hf, rfl⟩ | ⟨p, w, u, hf, hrun⟩
  · exact h
  · exact hwritten _ hf
  · have hu := hcommand p w u hf
    rcases hrun with ⟨_, -, rfl⟩ | ⟨i, -, hexec⟩
    · exact illegalCommand_inv hu
    · exact exec_inv hu hexec

/-- Settles O58: the state is R332's, of R330's example configuration, which R331 takes. -/
theorem resetMeetsInvariant : Obligations.ResetMeetsInvariant :=
  afterReset_inv (cfg := Config.exampleCfg) (s := State.reset) 0 (by decide) (by decide) (by decide) Memory.reset_wf

end Sys2Proof.Machine
end

section
/-! SUPPORT. The external memory as the block's environment (spec/20_memory.md): a host write changes one byte (R72, R80), no
command changes any (R70), and only the line service reads one (R77). The last is a fact about two runs, the second over
another memory: every operation but the line service commutes with replacing the memory. -/

namespace Sys2Proof.Machine

/-! ## Host writes -/

/-- What a host write does to the byte at each address. -/
theorem Memory.read_write {m : Memory} (h : Memory.wf m) (a x : Nat) (b : Byte) :
    Memory.read (Memory.write m a b) x = if x = a then b else Memory.read m x := by
  split
  next hx => rw [hx, Memory.read_write_self m a b h]
  next hx => exact Memory.read_write_of_ne m b hx

/-- With no command held the oldest input is the one taken; a host write is done at once (R80). -/
theorem step_of_hostWrite {s : State} {a : BitVec 32} {b : Byte} {rest : List Input} (hheld : s.held = none)
    (hin : s.inputs = .hostWrite a b :: rest) :
    step s = .next { s with inputs := rest, mem := Memory.write s.mem a.toNat b } := by
  have hfetch : fetch s = .written { s with inputs := rest, mem := Memory.write s.mem a.toNat b } := by
    simp [fetch, takeInput, hheld, takeOldest, hin, latch]
  rw [step, hfetch]

/-- Settles O8: the step writes the byte into the memory, and the rest is read after write in canonical form. -/
theorem hostWriteReachesMemoryInOrder : Obligations.HostWriteReachesMemoryInOrder := by
  intro s a b rest hheld hin hmem
  exact ⟨Memory.write s.mem a.toNat b, step_of_hostWrite hheld hin, Memory.write_wf b hmem a.isLt,
    fun x => Memory.read_write hmem a.toNat x b⟩

/-! ## What a command keeps of its environment -/

/-- `t` has the environment of `s`: its memory, inputs and sideband, and what `s` had sent comes first in what `t` has. -/
structure EnvKept (s t : State) : Prop where
  mem : t.mem = s.mem
  inputs : t.inputs = s.inputs
  now : t.now = s.now
  cfgIn : t.cfgIn = s.cfgIn
  out : ∃ sent : List OutEvent, t.out = s.out ++ sent

namespace EnvKept

variable {s t u : State}

theorem of_out_eq (hmem : t.mem = s.mem) (hin : t.inputs = s.inputs) (hnow : t.now = s.now) (hcfg : t.cfgIn = s.cfgIn)
    (hout : t.out = s.out) : EnvKept s t :=
  ⟨hmem, hin, hnow, hcfg, [], by rw [hout, List.append_nil]⟩

theorem refl (s : State) : EnvKept s s := of_out_eq rfl rfl rfl rfl rfl

theorem trans (h : EnvKept s t) (h' : EnvKept t u) : EnvKept s u := by
  obtain ⟨sent, hout⟩ := h.out
  obtain ⟨sent', hout'⟩ := h'.out
  exact ⟨h'.mem.trans h.mem, h'.inputs.trans h.inputs, h'.now.trans h.now, h'.cfgIn.trans h.cfgIn, sent ++ sent',
    by rw [hout', hout, List.append_assoc]⟩

end EnvKept

theorem ChanFrame.envKept {s t : State} (h : ChanFrame s t) : EnvKept s t := by
  obtain ⟨_, _, _, rfl⟩ := h
  exact .of_out_eq rfl rfl rfl rfl rfl

theorem send_envKept (e : OutEvent) (s : State) : EnvKept s (send e s) := ⟨rfl, rfl, rfl, rfl, [e], rfl⟩

theorem takeFault_envKept (f : FaultReason) (s : State) : EnvKept s (takeFault f s) := .of_out_eq rfl rfl rfl rfl rfl

theorem flushCheck_envKept (s : State) : EnvKept s (flushCheck s) := by
  rcases flushCheck_cases s with ⟨-, he⟩ | ⟨-, he⟩ <;> rw [he]
  · exact ⟨rfl, rfl, rfl, rfl, _, rfl⟩
  · exact .refl s

theorem produceFrame_envKept (s : State) : EnvKept s (produceFrame s) := by
  unfold produceFrame appendFrame
  refine EnvKept.trans ?_ (flushCheck_envKept _)
  exact .of_out_eq rfl rfl rfl rfl rfl

theorem sampleEvent_envKept (s : State) : EnvKept s (sampleEvent s) := by
  have hreload : EnvKept s { s with nextSampleEvtime := s.sampleEvtime } := .of_out_eq rfl rfl rfl rfl rfl
  rcases sampleEvent_cases s with ⟨-, he⟩ | ⟨-, he⟩ <;> rw [he]
  · exact hreload.trans (produceFrame_envKept _)
  · exact hreload

theorem dispatchSample_envKept (s : State) : EnvKept s (dispatchSample s) := by
  unfold dispatchSample
  split
  · exact sampleEvent_envKept s
  · exact .refl s

theorem iteration_envKept (s : State) : EnvKept s (iteration s) :=
  have helapse : EnvKept s (elapse (best s) s) := .of_out_eq rfl rfl rfl rfl rfl
  (helapse.trans (dispatchSample_envKept _)).trans (dispatchAll_frame _).envKept

theorem drain_envKept (n : Nat) (s : State) : EnvKept s (drain n s) :=
  drain_keeps (EnvKept s) (fun t _ _ h => h.trans (iteration_envKept t)) n s (.refl s)

/-- An effect changes channel records, request bits or one register of the block, or sends an answer (R122 to R131, R210 to
R214, R270). -/
theorem effect_envKept (i : Instr) (s : State) : EnvKept s (effect i s) := by
  cases i with
  | aud0dat data | aud1dat data | aud2dat data | aud3dat data => exact (writeDat_frame _ data s).envKept
  | lineSync => exact (effectLineSync_frame s).envKept
  | dmaconr | adkconr | intreqr => exact send_envKept _ s
  | _ => exact .of_out_eq rfl rfl rfl rfl rfl

theorem completeHeld_envKept (s : State) : EnvKept s (completeHeld s) := by
  have hfree : EnvKept s { s with held := none } := .of_out_eq rfl rfl rfl rfl rfl
  unfold completeHeld
  split
  · exact .refl s
  · exact hfree.trans (effect_envKept _ _)

theorem settle_envKept {s t : State} (h : settle s = .next t) : EnvKept s t := by
  have hdrain := drain_envKept (drainBound s) s
  rcases settle_next h with ⟨-, rfl⟩ | ⟨-, -, rfl⟩
  · exact hdrain.trans (completeHeld_envKept _)
  · exact hdrain

theorem registerCommand_envKept {cmd : Instr} {ok : Bool} {s t : State} (h : registerCommand cmd ok s = .next t) :
    EnvKept s t := by
  have harm : EnvKept s (arm cmd s) := .of_out_eq rfl rfl rfl rfl rfl
  rcases registerCommand_next h with ⟨-, rfl⟩ | ⟨-, rfl⟩ | ⟨-, rfl⟩ | ⟨-, rfl⟩ | ⟨-, -, -, -, hsettle⟩
  · exact .refl _
  · exact .refl _
  · exact takeFault_envKept _ s
  · exact takeFault_envKept _ s
  · exact harm.trans (settle_envKept hsettle)

theorem execRead_envKept {n : Word} {s t : State} (h : execRead n s = .next t) : EnvKept s t := by
  have haccept (k : Nat) : EnvKept s (acceptRead k s) := .of_out_eq rfl rfl rfl rfl rfl
  rcases execRead_next h with ⟨-, rfl⟩ | ⟨-, rfl⟩ | ⟨-, rfl⟩ | ⟨-, -, -, ⟨-, rfl⟩ | ⟨-, hsettle⟩⟩
  · exact .refl _
  · exact takeFault_envKept _ s
  · exact .refl _
  · exact haccept _
  · exact (haccept _).trans (settle_envKept hsettle)

theorem execReset_envKept {s t : State} (h : execReset s = .next t) : EnvKept s t := by
  rcases execReset_next s with ⟨cfg, -, he⟩ | ⟨-, he⟩ <;> rw [he] at h <;> cases h
  · exact .of_out_eq rfl rfl rfl rfl rfl
  · exact takeFault_envKept _ s

theorem exec_envKept {i : Instr} {s t : State} (h : exec i s = .next t) : EnvKept s t := by
  cases hport : i.port with
  | register => exact registerCommand_envKept (exec_of_register hport s ▸ h)
  | control =>
    cases i with
    | read n => exact execRead_envKept h
    | reset => exact execReset_envKept h
    | _ => cases hport

/-- Settles O55: every command keeps the environment, the memory in it. -/
theorem noCommandWritesMemory : Obligations.NoCommandWritesMemory := by
  intro i s t h
  obtain ⟨hmem, hin, hnow, hcfg, hout⟩ := exec_envKept h
  exact ⟨fun a => by rw [hmem], hin, hnow, hcfg, hout⟩

/-! ## Two runs over two memories -/

/-- `s` over another memory. -/
def State.withMem (m : Memory) (s : State) : State := { s with mem := m }

/-- An outcome over another memory. -/
def overMem (m : Memory) (o : Host.Outcome State Fault Refusal) : Host.Outcome State Fault Refusal :=
  match o with
  | .next s => .next (s.withMem m)
  | .fault f => .fault f
  | .refused r => .refused r

@[simp] theorem withMem_held (m : Memory) (s : State) : (s.withMem m).held = s.held := rfl

@[simp] theorem withMem_cfgIn (m : Memory) (s : State) : (s.withMem m).cfgIn = s.cfgIn := rfl

/-- A conditional operation commutes with `g`, which replaces the memory of a state or of an outcome, where each branch does:
no condition reads the memory, so it is the same on both sides. -/
theorem ite_commutes {α : Type} {g : α → α} {p : Prop} [Decidable p] {a b a' b' : α} (ha : p → a' = g a)
    (hb : ¬p → b' = g b) : (if p then a' else b') = g (if p then a else b) := by
  split
  next h => exact ha h
  next h => exact hb h

/-! ## The channel events but for state 1 -/

section

variable {m : Memory} {s : State} {c : ChanIdx}

theorem raiseIrqIf_withMem (b : Bool) (c : ChanIdx) (m : Memory) (s : State) :
    raiseIrqIf b c (s.withMem m) = (raiseIrqIf b c s).withMem m :=
  ite_commutes (fun _ => rfl) fun _ => rfl

theorem attachPer_withMem (c : ChanIdx) (v : Word) (m : Memory) (s : State) :
    attachPer c v (s.withMem m) = (attachPer c v s).withMem m := by
  unfold attachPer
  split <;> rfl

theorem attachVol_withMem (c : ChanIdx) (v : Word) (m : Memory) (s : State) :
    attachVol c v (s.withMem m) = (attachVol c v s).withMem m := by
  unfold attachVol
  split <;> rfl

theorem modChan_withMem (c : ChanIdx) (f : Channel → Channel) (m : Memory) (s : State) :
    (s.withMem m).modChan c f = (s.modChan c f).withMem m := rfl

theorem periodAttach_withMem (c : ChanIdx) (m : Memory) (s : State) :
    periodAttach c (s.withMem m) = (periodAttach c s).withMem m := by
  unfold periodAttach
  dsimp only
  rw [raiseIrqIf_withMem, modChan_withMem, attachPer_withMem]
  rfl

theorem handler2_withMem (c : ChanIdx) (m : Memory) (s : State) :
    handler2 c (s.withMem m) = (handler2 c s).withMem m :=
  ite_commutes (fun _ => periodAttach_withMem c m (advance2 c s)) fun _ => rfl

theorem handler3_withMem (c : ChanIdx) (m : Memory) (s : State) :
    handler3 c (s.withMem m) = (handler3 c s).withMem m := by
  have hgo : (raiseIrqIf (irq3 s c) c (s.withMem m)).modChan c (continueChannel s c) =
      ((raiseIrqIf (irq3 s c) c s).modChan c (continueChannel s c)).withMem m := by
    rw [raiseIrqIf_withMem, modChan_withMem]
  refine ite_commutes (fun _ => rfl) fun _ => ite_commutes (fun _ => ?_) fun _ => hgo
  exact (congrArg (attachVol c _) hgo).trans (attachVol_withMem c _ m _)

/-- Of the handlers only state 1's reads the memory (R162). The branches are R169's: states 1, 5, 2 and 3, then the defect. -/
theorem advanceChannel_withMem (h : (s.chan c).state ≠ 1) :
    advanceChannel c (s.withMem m) = (advanceChannel c s).withMem m :=
  ite_commutes (fun h1 => absurd h1 h) fun _ =>
    ite_commutes (fun _ => rfl) fun _ =>
      ite_commutes (fun _ => handler2_withMem c m s) fun _ =>
        ite_commutes (fun _ => handler3_withMem c m s) fun _ => rfl

theorem ChannelReady.state_ne_one {mask : BitVec 32} {k : Channel} (h : ChannelReady mask k) : k.state ≠ 1 := by
  rcases h.states with hst | hst | hst | hst <;> rw [hst] <;> decide

theorem dispatchChannel_withMem {n : Nat} (h : DispatchedTo n s) :
    dispatchChannel c (s.withMem m) = (dispatchChannel c s).withMem m :=
  ite_commutes (fun _ => advanceChannel_withMem (h.ready c).state_ne_one) fun _ => rfl

theorem dispatchAll_withMem (h : DispatchedTo 0 s) : dispatchAll (s.withMem m) = (dispatchAll s).withMem m := by
  have h1 : DispatchedTo 1 _ := h.dispatchChannel (c := 0)
  have h2 : DispatchedTo 2 _ := h1.dispatchChannel (c := 1)
  have h3 : DispatchedTo 3 _ := h2.dispatchChannel (c := 2)
  unfold dispatchAll
  rw [dispatchChannel_withMem h, dispatchChannel_withMem h1, dispatchChannel_withMem h2, dispatchChannel_withMem h3]

/-! ## The catch-up -/

theorem flushCheck_withMem (m : Memory) (s : State) : flushCheck (s.withMem m) = (flushCheck s).withMem m :=
  ite_commutes (fun _ => rfl) fun _ => rfl

theorem produceFrame_withMem (m : Memory) (s : State) : produceFrame (s.withMem m) = (produceFrame s).withMem m := by
  unfold produceFrame appendFrame
  rw [← flushCheck_withMem]
  rfl

theorem sampleEvent_withMem (m : Memory) (s : State) : sampleEvent (s.withMem m) = (sampleEvent s).withMem m :=
  ite_commutes (fun _ => produceFrame_withMem m { s with nextSampleEvtime := s.sampleEvtime }) fun _ => rfl

theorem dispatchSample_withMem (m : Memory) (s : State) : dispatchSample (s.withMem m) = (dispatchSample s).withMem m :=
  ite_commutes (fun _ => sampleEvent_withMem m s) fun _ => rfl

/-- Under the invariant no channel is in state 1, so an iteration reads no memory (R77). -/
theorem iteration_withMem (h : BlockInv s) : iteration (s.withMem m) = (iteration s).withMem m := by
  have hready : DispatchedTo 0 (dispatchSample (elapse (best s) s)) :=
    (h.chans.elapse _).outputFrame (dispatchSample_frame _)
  calc iteration (s.withMem m)
    _ = dispatchAll (dispatchSample ((elapse (best s) s).withMem m)) := rfl
    _ = (iteration s).withMem m := by rw [dispatchSample_withMem, dispatchAll_withMem hready, iteration]

theorem drain_withMem (h : BlockInv s) (n : Nat) : drain n (s.withMem m) = (drain n s).withMem m := by
  induction n generalizing s with
  | zero => rfl
  | succ n ih =>
    refine ite_commutes (fun _ => rfl) fun _ =>
      ite_commutes (fun _ => rfl) fun (hst : ¬stalled s = true) => ?_
    rw [iteration_withMem h, ih (h.iteration (by simpa using hst))]

/-! ## The commands -/

theorem writeDat_withMem (c : ChanIdx) (data : Word) (m : Memory) (s : State) :
    writeDat c data (s.withMem m) = (writeDat c data s).withMem m :=
  congrArg (State.modChan · c _) (raiseIrqIf_withMem (datStarts c s) c m s)

/-- Of the effects only LINE_SYNC's reads the memory (R212). -/
theorem effect_withMem {i : Instr} (hi : i ≠ .lineSync) (m : Memory) (s : State) :
    effect i (s.withMem m) = (effect i s).withMem m := by
  cases i with
  | lineSync => exact absurd rfl hi
  | aud0dat data | aud1dat data | aud2dat data | aud3dat data => exact writeDat_withMem _ data m s
  | _ => rfl

theorem completeHeld_withMem (hheld : s.held ≠ some .lineSync) :
    completeHeld (s.withMem m) = (completeHeld s).withMem m := by
  unfold completeHeld
  rw [withMem_held]
  cases hcmd : s.held with
  | none => rfl
  | some cmd =>
    have hne : cmd ≠ .lineSync := fun he => hheld (hcmd.trans (congrArg some he))
    exact effect_withMem hne m { s with held := none }

theorem settle_withMem (h : BlockInv s) (hheld : s.held ≠ some .lineSync) :
    settle (s.withMem m) = overMem m (settle s) := by
  have hdrained : (drain (drainBound s) s).held = s.held := by
    obtain ⟨_, _, _, _, _, _, _, _, _, he⟩ := drain_frame (drainBound s) s
    rw [he]
  calc settle (s.withMem m)
    _ = settleDrained ((drain (drainBound s) s).withMem m) := congrArg settleDrained (drain_withMem h _)
    _ = overMem m (settle s) :=
      ite_commutes (fun _ => congrArg Host.Outcome.next (completeHeld_withMem (hdrained ▸ hheld))) fun _ =>
        ite_commutes (fun _ => rfl) fun _ => rfl

/-- The four checks read no memory, and each answer before the catch-up is the state or a fault (R120, R301). -/
theorem registerCommand_withMem {cmd : Instr} (h : BlockInv s) (hcmd : cmd ≠ .lineSync) (ok : Bool) :
    registerCommand cmd ok (s.withMem m) = overMem m (registerCommand cmd ok s) := by
  have harm : BlockInv (arm cmd s) := { h with chans := { h.chans with } }
  have hsettle : settle ((arm cmd s).withMem m) = overMem m (settle (arm cmd s)) :=
    settle_withMem harm fun he => hcmd (Option.some.inj he)
  exact ite_commutes (fun _ => rfl) fun _ => ite_commutes (fun _ => rfl) fun _ =>
    ite_commutes (fun _ => rfl) fun _ => ite_commutes (fun _ => rfl) fun _ => hsettle

/-- A request that passes the three checks of R285 opens the buffer, and the held catch-up goes on under the invariant. -/
theorem execRead_withMem (h : BlockInv s) (hheld : s.held ≠ some .lineSync) (n : Word) :
    execRead n (s.withMem m) = overMem m (execRead n s) := by
  refine ite_commutes (fun _ => rfl) fun _ => ite_commutes (fun _ => rfl) fun (hw : ¬(!s.pcm.waitingRead) = true) =>
    ite_commutes (fun _ => rfl) fun hcount => ite_commutes (fun _ => ?_) fun _ => rfl
  exact settle_withMem (h.acceptRead (by simpa using hw) hcount) hheld

theorem execReset_withMem (m : Memory) (s : State) : execReset (s.withMem m) = overMem m (execReset s) := by
  unfold execReset
  rw [withMem_cfgIn]
  cases loadCfg s.cfgIn <;> rfl

theorem exec_withMem {i : Instr} (h : BlockInv s) (hi : i ≠ .lineSync) (hheld : s.held ≠ some .lineSync) :
    exec i (s.withMem m) = overMem m (exec i s) := by
  cases hport : i.port with
  | register =>
    rw [exec_of_register hport, exec_of_register hport]
    exact registerCommand_withMem h hi _
  | control =>
    cases i with
    | read n => exact execRead_withMem h hheld n
    | reset => exact execReset_withMem m s
    | _ => cases hport

end

/-- Settles O56: over another memory the command answers the same outcome over that memory. -/
theorem onlyLineSyncReadsMemory : Obligations.OnlyLineSyncReadsMemory := by
  intro i s t m hinv hi hheld hn
  obtain ⟨hb, -⟩ := inv_iff.mp hinv
  exact (exec_withMem hb hi hheld).trans (congrArg (overMem m) hn)

end Sys2Proof.Machine
end

section
/-! SUPPORT. The encoding (spec/30_encoding.md): what the fields of a word are in each of the four layouts of R92, which
offsets R93 lists, and the table row a word must fit to be a command. The rows give both round trips and the legal words. -/

namespace Sys2Proof

/-! ## The fields of a word -/

theorem extractLsb'_append_add {m n : Nat} (start len : Nat) (hi : BitVec m) (lo : BitVec n) :
    (hi ++ lo).extractLsb' (start + n) len = hi.extractLsb' start len := by
  rw [BitVec.extractLsb'_append_eq_of_le (Nat.le_add_left n start), Nat.add_sub_cancel]

section

variable (k : BitVec 4) (z : BitVec 3) (off : BitVec 9) (data : Word)

/-- The layout of REGW and REGR (R92). -/
theorem fields_append_register :
    classField (k ++ z ++ off ++ data) = k ∧ highBits (k ++ z ++ off ++ data) = z ∧
      offField (k ++ z ++ off ++ data) = off ∧ dataField (k ++ z ++ off ++ data) = data := by
  have habove (start len : Nat) :
      (k ++ z ++ off ++ data).extractLsb' (start + 9 + 16) len = (k ++ z).extractLsb' start len :=
    (extractLsb'_append_add _ len (k ++ z ++ off) data).trans (extractLsb'_append_add start len (k ++ z) off)
  refine ⟨?_, ?_, ?_, BitVec.extractLsb'_append_eq_right⟩
  · exact (habove 3 4).trans BitVec.extractLsb'_append_eq_left
  · exact (habove 0 3).trans BitVec.extractLsb'_append_eq_right
  · exact (extractLsb'_append_add 0 9 _ data).trans BitVec.extractLsb'_append_eq_right

/-- The layout of SYNC, LINE_SYNC, SET_SAMPLE_EVTIME and RESET (R92). -/
theorem fields_append_value (v : BitVec 28) : classField (k ++ v) = k ∧ valueField (k ++ v) = v :=
  ⟨BitVec.extractLsb'_append_eq_left, BitVec.extractLsb'_append_eq_right⟩

/-- The layout of SET_MAXHPOS and READ (R92). -/
theorem fields_append_data (y : BitVec 12) :
    classField (k ++ y ++ data) = k ∧ (k ++ y ++ data).extractLsb' 16 12 = y ∧ dataField (k ++ y ++ data) = data := by
  refine ⟨?_, ?_, BitVec.extractLsb'_append_eq_right⟩
  · exact (extractLsb'_append_add 12 4 _ data).trans BitVec.extractLsb'_append_eq_left
  · exact (extractLsb'_append_add 0 12 _ data).trans BitVec.extractLsb'_append_eq_right

/-- The layout of SET_LED (R92). -/
theorem fields_append_led (x : BitVec 27) (led : Bool) :
    classField (k ++ x ++ BitVec.ofBool led) = k ∧ (k ++ x ++ BitVec.ofBool led).extractLsb' 1 27 = x ∧
      (k ++ x ++ BitVec.ofBool led).getLsbD 0 = led := by
  refine ⟨?_, ?_, ?_⟩
  · exact (extractLsb'_append_add 27 4 _ (BitVec.ofBool led)).trans BitVec.extractLsb'_append_eq_left
  · exact (extractLsb'_append_add 0 27 _ (BitVec.ofBool led)).trans BitVec.extractLsb'_append_eq_right
  · rw [BitVec.getLsbD_append]
    simp

end

section

variable (w : CmdWord)

theorem append_register_fields : classField w ++ highBits w ++ offField w ++ dataField w = w := by
  have htop : classField w ++ highBits w = w.extractLsb' 25 7 := BitVec.extractLsb'_append_extractLsb'_eq_extractLsb' rfl
  have hupper : w.extractLsb' 25 7 ++ offField w = w.extractLsb' 16 16 :=
    BitVec.extractLsb'_append_extractLsb'_eq_extractLsb' rfl
  rw [htop, hupper]
  exact BitVec.extractLsb'_append_extractLsb'

theorem append_value_fields : classField w ++ valueField w = w := BitVec.extractLsb'_append_extractLsb'

theorem append_data_fields : classField w ++ w.extractLsb' 16 12 ++ dataField w = w := by
  have hupper : classField w ++ w.extractLsb' 16 12 = w.extractLsb' 16 16 :=
    BitVec.extractLsb'_append_extractLsb'_eq_extractLsb' rfl
  rw [hupper]
  exact BitVec.extractLsb'_append_extractLsb'

theorem append_led_fields : classField w ++ w.extractLsb' 1 27 ++ BitVec.ofBool (w.getLsbD 0) = w := by
  have hupper : classField w ++ w.extractLsb' 1 27 = w.extractLsb' 1 31 :=
    BitVec.extractLsb'_append_extractLsb'_eq_extractLsb' rfl
  have hlow : BitVec.ofBool (w.getLsbD 0) = w.extractLsb' 0 1 := by
    ext j hj
    obtain rfl : j = 0 := by omega
    simp
  rw [hupper, hlow]
  exact BitVec.extractLsb'_append_extractLsb'

end

/-! ## The register offsets -/

/-- The offset of channel `c`'s register `r`, in R93's order LCH, LCL, LEN, PER, VOL, DAT. -/
def channelOffset (c : ChanIdx) (r : Fin 6) : BitVec 9 := BitVec.ofNat 9 (0x0A0 + 0x10 * c.val + 2 * r.val)

/-- The write of channel `c`'s register `r`. -/
def channelWrite (c : ChanIdx) (r : Fin 6) (data : Word) : Instr :=
  match r with
  | 0 => audLch c data
  | 1 => audLcl c data
  | 2 => audLen c data
  | 3 => audPer c data
  | 4 => audVol c data
  | 5 => audDat c data

theorem eq_channelOffset_iff {off : BitVec 9} {c : ChanIdx} {r : Fin 6} :
    off = channelOffset c r ↔ off.toNat = 0x0A0 + 0x10 * c.val + 2 * r.val := by
  have hlt : 0x0A0 + 0x10 * c.val + 2 * r.val < 2 ^ 9 := by omega
  rw [channelOffset, ← BitVec.toNat_inj, BitVec.toNat_ofNat, Nat.mod_eq_of_lt hlt]

/-- The channel is `off[7:4] - 0xA` and the register is half of `off[3:0]` (R94). -/
theorem eq_channelOffset_of_fields {off : BitVec 9} {c : ChanIdx} {r : Fin 6}
    (hc : off.extractLsb' 4 5 = BitVec.ofNat 5 (0x0A + c.val)) (hr : off.extractLsb' 0 4 = BitVec.ofNat 4 (2 * r.val)) :
    off = channelOffset c r := by
  have hsplit : off.extractLsb' 4 5 ++ off.extractLsb' 0 4 = off := BitVec.extractLsb'_append_extractLsb'
  rw [← hsplit, hc, hr]
  fin_cases c <;> fin_cases r <;> rfl

theorem decodeRegw_channelOffset (c : ChanIdx) (r : Fin 6) (data : Word) :
    decodeRegw (channelOffset c r) data = .instr (channelWrite c r data) := by
  fin_cases c <;> fin_cases r <;> rfl

theorem encode_channelWrite (c : ChanIdx) (r : Fin 6) (data : Word) :
    encode (channelWrite c r data) = encodeRegw (channelOffset c r) data := by
  fin_cases c <;> fin_cases r <;> rfl

theorem channelWrite_port (c : ChanIdx) (r : Fin 6) (data : Word) : (channelWrite c r data).port = .register := by
  fin_cases c <;> fin_cases r <;> rfl

/-- `off[3:0]` selects one of the six registers (R94). -/
theorem decodeChannelReg_instr {c : ChanIdx} {sel : BitVec 4} {data : Word} {i : Instr}
    (h : decodeChannelReg c sel data = .instr i) :
    ∃ r : Fin 6, sel = BitVec.ofNat 4 (2 * r.val) ∧ i = channelWrite c r data := by
  unfold decodeChannelReg at h
  split at h
  next hsel => exact ⟨0, hsel, by cases h; rfl⟩
  split at h
  next hsel => exact ⟨1, hsel, by cases h; rfl⟩
  split at h
  next hsel => exact ⟨2, hsel, by cases h; rfl⟩
  split at h
  next hsel => exact ⟨3, hsel, by cases h; rfl⟩
  split at h
  next hsel => exact ⟨4, hsel, by cases h; rfl⟩
  split at h
  next hsel => exact ⟨5, hsel, by cases h; rfl⟩
  · cases h

/-- The writes of R93, by their offset. -/
inductive RegwRow (off : BitVec 9) (data : Word) : Instr → Prop where
  | dmacon (h : off = 0x096#9) : RegwRow off data (.dmacon data)
  | intreq (h : off = 0x09C#9) : RegwRow off data (.intreq data)
  | adkcon (h : off = 0x09E#9) : RegwRow off data (.adkcon data)
  | channel (c : ChanIdx) (r : Fin 6) (h : off = channelOffset c r) : RegwRow off data (channelWrite c r data)

theorem regwRow_of_channelReg {off : BitVec 9} {data : Word} {i : Instr} (c : ChanIdx)
    (hc : off.extractLsb' 4 5 = BitVec.ofNat 5 (0x0A + c.val))
    (h : decodeChannelReg c (off.extractLsb' 0 4) data = .instr i) : RegwRow off data i := by
  obtain ⟨r, hr, rfl⟩ := decodeChannelReg_instr h
  exact .channel c r (eq_channelOffset_of_fields hc hr)

theorem decodeRegw_eq_instr {off : BitVec 9} {data : Word} {i : Instr} :
    decodeRegw off data = .instr i ↔ RegwRow off data i := by
  constructor
  · intro h
    unfold decodeRegw at h
    split at h
    next hoff => cases h; exact .dmacon hoff
    split at h
    next hoff => cases h; exact .intreq hoff
    split at h
    next hoff => cases h; exact .adkcon hoff
    split at h
    next => cases h
    split at h
    next hc => exact regwRow_of_channelReg 0 hc h
    split at h
    next hc => exact regwRow_of_channelReg 1 hc h
    split at h
    next hc => exact regwRow_of_channelReg 2 hc h
    split at h
    next hc => exact regwRow_of_channelReg 3 hc h
    next => cases h
  · rintro (rfl | rfl | rfl | ⟨c, r, rfl⟩)
    · rfl
    · rfl
    · rfl
    · exact decodeRegw_channelOffset c r data

/-- The reads of R93, by their offset. -/
inductive RegrRow (off : BitVec 9) : Instr → Prop where
  | dmaconr (h : off = 0x002#9) : RegrRow off .dmaconr
  | adkconr (h : off = 0x010#9) : RegrRow off .adkconr
  | intreqr (h : off = 0x01E#9) : RegrRow off .intreqr

theorem decodeRegr_eq_instr {off : BitVec 9} {i : Instr} : decodeRegr off = .instr i ↔ RegrRow off i := by
  constructor
  · intro h
    unfold decodeRegr at h
    split at h
    next hoff => cases h; exact .dmaconr hoff
    split at h
    next hoff => cases h; exact .adkconr hoff
    split at h
    next hoff => cases h; exact .intreqr hoff
    next => split at h <;> cases h
  · rintro (rfl | rfl | rfl) <;> rfl

/-! ## The rows of R92 -/

/-- The rows of R92: `w` is of the row's class, its zero fields are 0, and `i` is the row's command with its operand. -/
inductive TableRow (w : CmdWord) : Instr → Prop where
  | regw {i : Instr} (hk : classField w = 0x0#4) (hz : highBits w = 0#3) (hreg : RegwRow (offField w) (dataField w) i) :
      TableRow w i
  | regr {i : Instr} (hk : classField w = 0x1#4) (hz : highBits w = 0#3) (hd : dataField w = 0#16)
      (hreg : RegrRow (offField w) i) : TableRow w i
  | sync (hk : classField w = 0x2#4) (hz : valueField w = 0#28) : TableRow w .sync
  | lineSync (hk : classField w = 0x3#4) (hz : valueField w = 0#28) : TableRow w .lineSync
  | setled (hk : classField w = 0x4#4) (hz : w.extractLsb' 1 27 = 0#27) : TableRow w (.setled (w.getLsbD 0))
  | setmaxhpos (hk : classField w = 0x5#4) (hz : w.extractLsb' 16 12 = 0#12) : TableRow w (.setmaxhpos (dataField w))
  | setsevt (hk : classField w = 0x6#4) : TableRow w (.setsevt (valueField w))
  | read (hk : classField w = 0x8#4) (hz : w.extractLsb' 16 12 = 0#12) : TableRow w (.read (dataField w))
  | reset (hk : classField w = 0x9#4) (hz : valueField w = 0#28) : TableRow w .reset

/-- A word whose zero fields are not all 0 decodes to no command (R95). -/
theorem whenZero_eq_instr {clear : Bool} {d : Decoded} {i : Instr} :
    whenZero clear d = .instr i ↔ clear = true ∧ d = .instr i := by
  cases clear <;> simp [whenZero]

theorem tableRow_of_decodeWord {w : CmdWord} {i : Instr} (h : decodeWord w = .instr i) : TableRow w i := by
  unfold decodeWord at h
  split at h
  next hk =>
    obtain ⟨hz, hreg⟩ := whenZero_eq_instr.mp h
    exact .regw hk (eq_of_beq hz) (decodeRegw_eq_instr.mp hreg)
  split at h
  next hk =>
    obtain ⟨hz, hreg⟩ := whenZero_eq_instr.mp h
    obtain ⟨hhigh, hdata⟩ := Bool.and_eq_true_iff.mp hz
    exact .regr hk (eq_of_beq hhigh) (eq_of_beq hdata) (decodeRegr_eq_instr.mp hreg)
  split at h
  next hk =>
    obtain ⟨hz, ⟨⟩⟩ := whenZero_eq_instr.mp h
    exact .sync hk (eq_of_beq hz)
  split at h
  next hk =>
    obtain ⟨hz, ⟨⟩⟩ := whenZero_eq_instr.mp h
    exact .lineSync hk (eq_of_beq hz)
  split at h
  next hk =>
    obtain ⟨hz, ⟨⟩⟩ := whenZero_eq_instr.mp h
    exact .setled hk (eq_of_beq hz)
  split at h
  next hk =>
    obtain ⟨hz, ⟨⟩⟩ := whenZero_eq_instr.mp h
    exact .setmaxhpos hk (eq_of_beq hz)
  split at h
  next hk =>
    cases h
    exact .setsevt hk
  split at h
  next hk =>
    obtain ⟨hz, ⟨⟩⟩ := whenZero_eq_instr.mp h
    exact .read hk (eq_of_beq hz)
  split at h
  next hk =>
    obtain ⟨hz, ⟨⟩⟩ := whenZero_eq_instr.mp h
    exact .reset hk (eq_of_beq hz)
  next => cases h

theorem decodeWord_of_tableRow {w : CmdWord} {i : Instr} (h : TableRow w i) : decodeWord w = .instr i := by
  cases h with
  | regw hk hz hreg => simp [decodeWord, whenZero, hk, hz, decodeRegw_eq_instr.mpr hreg]
  | regr hk hz hd hreg => simp [decodeWord, whenZero, hk, hz, hd, decodeRegr_eq_instr.mpr hreg]
  | sync hk hz | lineSync hk hz | setled hk hz | setmaxhpos hk hz | read hk hz | reset hk hz =>
    simp [decodeWord, whenZero, hk, hz]
  | setsevt hk => simp [decodeWord, hk]

/-- A word decodes on a port exactly to the command of the row it fits, where that command is the port's (R92, R95). -/
theorem decodeOn_eq_instr_iff_tableRow {p : Port} {w : CmdWord} {i : Instr} :
    decodeOn p w = .instr i ↔ TableRow w i ∧ i.port = p :=
  decodeOn_eq_instr.trans (and_congr_left' ⟨tableRow_of_decodeWord, decodeWord_of_tableRow⟩)

/-! ## The round trips -/

theorem tableRow_encodeRegw {off : BitVec 9} {data : Word} {i : Instr} (h : RegwRow off data i) :
    TableRow (encodeRegw off data) i := by
  obtain ⟨hk, hz, hoff, hdata⟩ := fields_append_register 0x0#4 0#3 off data
  exact .regw hk hz (by rw [encodeRegw, hoff, hdata]; exact h)

theorem tableRow_encodeRegr {off : BitVec 9} {i : Instr} (h : RegrRow off i) : TableRow (encodeRegr off) i := by
  obtain ⟨hk, hz, hoff, hdata⟩ := fields_append_register 0x1#4 0#3 off 0#16
  exact .regr hk hz hdata (by rw [encodeRegr, hoff]; exact h)

/-- The word of every command fits its row of R92. -/
theorem tableRow_encode (i : Instr) : TableRow (encode i) i := by
  cases i with
  | dmaconr => exact tableRow_encodeRegr (.dmaconr rfl)
  | adkconr => exact tableRow_encodeRegr (.adkconr rfl)
  | intreqr => exact tableRow_encodeRegr (.intreqr rfl)
  | sync => exact .sync rfl rfl
  | lineSync => exact .lineSync rfl rfl
  | setled led =>
    obtain ⟨hk, hz, hled⟩ := fields_append_led 0x4#4 0#27 led
    have hrow := TableRow.setled hk hz
    rwa [hled] at hrow
  | setmaxhpos value =>
    obtain ⟨hk, hz, hdata⟩ := fields_append_data 0x5#4 value 0#12
    have hrow := TableRow.setmaxhpos hk hz
    rwa [hdata] at hrow
  | setsevt value =>
    obtain ⟨hk, hvalue⟩ := fields_append_value 0x6#4 value
    have hrow := TableRow.setsevt hk
    rwa [hvalue] at hrow
  | read nbytes =>
    obtain ⟨hk, hz, hdata⟩ := fields_append_data 0x8#4 nbytes 0#12
    have hrow := TableRow.read hk hz
    rwa [hdata] at hrow
  | reset => exact .reset rfl rfl
  | _ => exact tableRow_encodeRegw (decodeRegw_eq_instr.mp rfl)

theorem decodeOn_encode (i : Instr) : decodeOn i.port (encode i) = .instr i :=
  decodeOn_eq_instr_iff_tableRow.mpr ⟨tableRow_encode i, rfl⟩

/-- Settles O1: the command's word fits its row of R92; on the other port the class is misplaced (R95). -/
theorem encodedCommandDecodesBack : Obligations.EncodedCommandDecodesBack := by
  intro i
  refine ⟨decodeOn_encode i, fun p hp => ?_⟩
  rw [decodeOn, decodeWord_of_tableRow (tableRow_encode i)]
  exact if_neg hp.symm

theorem RegwRow.encode_eq {off : BitVec 9} {data : Word} {i : Instr} (h : RegwRow off data i) :
    encode i = encodeRegw off data := by
  cases h with
  | dmacon h | intreq h | adkcon h => rw [h]; rfl
  | channel c r h => rw [h, encode_channelWrite]

theorem RegrRow.encode_eq {off : BitVec 9} {i : Instr} (h : RegrRow off i) : encode i = encodeRegr off := by
  cases h with
  | dmaconr h | adkconr h | intreqr h => rw [h]; rfl

/-- A word that fits a row is put together from the class, the zero fields and the operand of the row's command. -/
theorem TableRow.encode_eq {w : CmdWord} {i : Instr} (h : TableRow w i) : encode i = w := by
  cases h with
  | regw hk hz hreg => rw [hreg.encode_eq, encodeRegw, ← hk, ← hz]; exact append_register_fields w
  | regr hk hz hd hreg => rw [hreg.encode_eq, encodeRegr, ← hk, ← hz, ← hd]; exact append_register_fields w
  | sync hk hz | lineSync hk hz | reset hk hz => rw [encode, ← hk, ← hz]; exact append_value_fields w
  | setled hk hz => rw [encode, ← hk, ← hz]; exact append_led_fields w
  | setmaxhpos hk hz | read hk hz => rw [encode, ← hk, ← hz]; exact append_data_fields w
  | setsevt hk => rw [encode, ← hk]; exact append_value_fields w

/-- Settles O2: the word fits the row of the command it decodes to, and the row fixes all its bits. -/
theorem decodedWordIsTheCommandsEncoding : Obligations.DecodedWordIsTheCommandsEncoding := by
  intro p w i h
  obtain ⟨hrow, hport⟩ := decodeOn_eq_instr_iff_tableRow.mp h
  exact ⟨hrow.encode_eq, hport⟩

/-- Settles O3: each word of the table is its command's encoding, and the two illegal ones are rejected by evaluation. -/
theorem sampleEncodingsDecode : Obligations.SampleEncodingsDecode := by
  have row {i : Instr} {p : Port} {w : CmdWord} (hw : encode i = w) (hp : i.port = p) : decodeOn p w = .instr i :=
    hw ▸ hp ▸ decodeOn_encode i
  exact ⟨row rfl rfl, row rfl rfl, row rfl rfl, row rfl rfl, row rfl rfl, row rfl rfl, row rfl rfl, row rfl rfl,
    row rfl rfl, row rfl rfl, row rfl rfl, row rfl rfl, row rfl rfl, row rfl rfl, row rfl rfl, row rfl rfl, row rfl rfl,
    rfl, rfl⟩

/-! ## The legal words -/

theorem RegwRow.port_eq {off : BitVec 9} {data : Word} {i : Instr} (h : RegwRow off data i) : i.port = .register := by
  cases h with
  | dmacon | intreq | adkcon => rfl
  | channel c r h => exact channelWrite_port c r data

theorem RegrRow.port_eq {off : BitVec 9} {i : Instr} (h : RegrRow off i) : i.port = .register := by
  cases h <;> rfl

/-- The offsets that R93 lets REGW write. -/
theorem exists_regwRow_iff {off : BitVec 9} {data : Word} :
    (∃ i, RegwRow off data i) ↔ off = 0x096#9 ∨ off = 0x09C#9 ∨ off = 0x09E#9 ∨
      ∃ (c : Fin 4) (r : Fin 6), off.toNat = 0x0A0 + 0x10 * c.val + 2 * r.val := by
  constructor
  · rintro ⟨i, h | h | h | ⟨c, r, h⟩⟩
    · exact .inl h
    · exact .inr (.inl h)
    · exact .inr (.inr (.inl h))
    · exact .inr (.inr (.inr ⟨c, r, eq_channelOffset_iff.mp h⟩))
  · rintro (h | h | h | ⟨c, r, h⟩)
    · exact ⟨_, .dmacon h⟩
    · exact ⟨_, .intreq h⟩
    · exact ⟨_, .adkcon h⟩
    · exact ⟨_, .channel c r (eq_channelOffset_iff.mpr h)⟩

/-- The offsets that R93 lets REGR read. -/
theorem exists_regrRow_iff {off : BitVec 9} :
    (∃ i, RegrRow off i) ↔ off = 0x002#9 ∨ off = 0x010#9 ∨ off = 0x01E#9 := by
  constructor
  · rintro ⟨i, h | h | h⟩
    · exact .inl h
    · exact .inr (.inl h)
    · exact .inr (.inr h)
  · rintro (h | h | h)
    · exact ⟨_, .dmaconr h⟩
    · exact ⟨_, .adkconr h⟩
    · exact ⟨_, .intreqr h⟩

/-- Settles O4: the rows of the register port's commands, then the two of the control port's. -/
theorem legalWordsAreExactlyTheTables : Obligations.LegalWordsAreExactlyTheTables := by
  refine ⟨fun w => ?_, fun w => ?_⟩ <;> simp only [decodeOn_eq_instr_iff_tableRow] <;> constructor
  · rintro ⟨i, hrow, hport⟩
    cases hrow with
    | regw hk hz hreg => exact .inl ⟨hk, hz, exists_regwRow_iff.mp ⟨i, hreg⟩⟩
    | regr hk hz hd hreg => exact .inr (.inl ⟨hk, hz, hd, exists_regrRow_iff.mp ⟨i, hreg⟩⟩)
    | sync hk hz => exact .inr (.inr (.inl ⟨.inl hk, hz⟩))
    | lineSync hk hz => exact .inr (.inr (.inl ⟨.inr hk, hz⟩))
    | setled hk hz => exact .inr (.inr (.inr (.inl ⟨hk, hz⟩)))
    | setmaxhpos hk hz => exact .inr (.inr (.inr (.inr (.inl ⟨hk, hz⟩))))
    | setsevt hk => exact .inr (.inr (.inr (.inr (.inr hk))))
    | read | reset => cases hport
  · rintro (⟨hk, hz, hoff⟩ | ⟨hk, hz, hd, hoff⟩ | ⟨hk | hk, hz⟩ | ⟨hk, hz⟩ | ⟨hk, hz⟩ | hk)
    · obtain ⟨i, hreg⟩ := exists_regwRow_iff (data := dataField w).mpr hoff
      exact ⟨i, .regw hk hz hreg, hreg.port_eq⟩
    · obtain ⟨i, hreg⟩ := exists_regrRow_iff.mpr hoff
      exact ⟨i, .regr hk hz hd hreg, hreg.port_eq⟩
    · exact ⟨_, .sync hk hz, rfl⟩
    · exact ⟨_, .lineSync hk hz, rfl⟩
    · exact ⟨_, .setled hk hz, rfl⟩
    · exact ⟨_, .setmaxhpos hk hz, rfl⟩
    · exact ⟨_, .setsevt hk, rfl⟩
  · rintro ⟨i, hrow, hport⟩
    cases hrow with
    | read hk hz => exact .inl ⟨hk, hz⟩
    | reset hk hz => exact .inr ⟨hk, hz⟩
    | regw _ _ hreg => cases hreg.port_eq.symm.trans hport
    | regr _ _ _ hreg => cases hreg.port_eq.symm.trans hport
    | _ => cases hport
  · rintro (⟨hk, hz⟩ | ⟨hk, hz⟩)
    · exact ⟨_, .read hk hz, rfl⟩
    · exact ⟨_, .reset hk hz, rfl⟩

end Sys2Proof
end

section
/-! SUPPORT. What a step makes of the command word it takes (spec/30_encoding.md R90, R91, R95, spec/45_output_buffer.md
R283): the decoded command run, or IllegalCommand; and the value check that comes before the time check (R96, R301). -/

namespace Sys2Proof.Machine

variable {s : State} {w : CmdWord} {t : BitVec 64} {cfg : RawCfg} {before rest : List Input} {p : Port} {i : Instr}

/-! ## The word a step takes -/

/-- The control port's oldest input is taken past the inputs before it (R283). -/
theorem takeControl_append (hbefore : ∀ x ∈ before, x.isControl = false) :
    takeControl (before ++ .control w t cfg :: rest) = some (.control w t cfg, before ++ rest) := by
  induction before with
  | nil => rfl
  | cons x xs ih =>
    obtain ⟨hx, hxs⟩ := List.forall_mem_cons.mp hbefore
    simp [takeControl, hx, ih hxs]

theorem step_of_register (hheld : s.held = none) (hin : s.inputs = .register w t :: rest) :
    step s = runWord .register w { s with inputs := rest, now := t } := by
  have hfetch : fetch s = .command .register w { s with inputs := rest, now := t } := by
    simp [fetch, takeInput, hheld, takeOldest, hin, latch]
  rw [step, hfetch]

/-- The control port is open with and without a held command; without one its input is taken where it is the oldest. -/
theorem step_of_control (hin : s.inputs = before ++ .control w t cfg :: rest) (hbefore : ∀ x ∈ before, x.isControl = false)
    (hfree : s.held = none → before = []) :
    step s = runWord .control w { s with inputs := before ++ rest, now := t, cfgIn := cfg } := by
  have htake : takeInput s = some (.control w t cfg, before ++ rest) := by
    cases hheld : s.held with
    | none => simp [takeInput, hheld, hin, hfree hheld, takeOldest]
    | some cmd => simp [takeInput, hheld, hin, takeControl_append hbefore]
  have hfetch : fetch s = .command .control w { s with inputs := before ++ rest, now := t, cfgIn := cfg } := by
    rw [fetch, htake]
    rfl
  rw [step, hfetch]

/-! ## The decoded command -/

theorem runWord_of_instr (h : decodeOn p w = .instr i) (s : State) : runWord p w s = exec i s := by
  rw [runWord, h]

/-- The oldest control-port input, whether or not a command is held. -/
theorem step_of_first_control (hin : s.inputs = .control w t cfg :: rest) (hdec : decodeOn .control w = .instr i) :
    step s = exec i { s with inputs := rest, now := t, cfgIn := cfg } :=
  (step_of_control (before := []) hin (fun _ hx => (nomatch hx)) fun _ => rfl).trans (runWord_of_instr hdec _)

theorem decodeTableWord_eq_some {n k : Nat} (h : decodeTableWord n k = some i) :
    decodeOn (portOfWord (BitVec.ofNat 32 (k % 2 ^ n))) (BitVec.ofNat 32 (k % 2 ^ n)) = .instr i := by
  unfold decodeTableWord at h
  split at h
  next hdec => cases h; exact hdec
  next => cases h

/-- The word that `withFetchWord` places stands first on the port of its class, which takes it. -/
theorem step_withFetchWord {k : Nat} (h : decodeTableWord 32 k = some i) (s : State) :
    step (s.withFetchWord 32 k) =
      if i.port = .register then exec i { s with held := none, pendingCycles := 0, now := s.lastCycles }
      else exec i { s with now := s.lastCycles } := by
  have hdec := decodeTableWord_eq_some h
  obtain ⟨-, hport⟩ := decodeOn_eq_instr.mp hdec
  simp only [State.withFetchWord, commandInput]
  generalize BitVec.ofNat 32 (k % 2 ^ 32) = word at hdec hport ⊢
  rw [hport]
  cases hp : portOfWord word with
  | register =>
    rw [hp] at hdec
    exact (step_of_register rfl rfl).trans (runWord_of_instr hdec _)
  | control =>
    rw [hp] at hdec
    exact step_of_first_control rfl hdec

/-- Settles O5: the step takes the oldest word on its port, or the one placed, and runs the command it decodes to. -/
theorem stepRunsTheDecodedCommand : Obligations.StepRunsTheDecodedCommand := by
  refine ⟨fun s w t rest i hheld hin hdec => ?_, fun s w t cfg rest i _ hin hdec => step_of_first_control hin hdec,
    fun s k i h => step_withFetchWord h s⟩
  exact (step_of_register hheld hin).trans (runWord_of_instr hdec _)

/-! ## The faults before the catch-up -/

theorem deaf_eq_false (hf : s.faulted = false) (ha : s.awaitingReset = false) : deaf s = false := by
  rw [deaf, hf, ha]
  rfl

/-- A block that takes commands answers a rejected word with IllegalCommand (R95). -/
theorem runWord_of_rejected {why : Reject} (h : decodeOn p w = .rejected why) (hdeaf : deaf s = false) :
    runWord p w s = .next (takeFault .illegalCommand s) := by
  simp [runWord, h, illegalCommand, hdeaf]

/-- Settles O7: the word is taken on its port and rejected, and the fault changes the fault fields alone. -/
theorem illegalWordOnlyFaults : Obligations.IllegalWordOnlyFaults := by
  refine ⟨fun s w t rest why hf ha hheld hin hdec => ?_, fun s w t cfg before rest why hf ha hin hbefore hfree hdec => ?_⟩
  · exact (step_of_register hheld hin).trans (runWord_of_rejected hdec (deaf_eq_false hf ha))
  · exact (step_of_control hin hbefore hfree).trans (runWord_of_rejected hdec (deaf_eq_false hf ha))

/-- The value check comes before the time check (R301), and it asks for R92's domain (R96). -/
theorem exec_of_bad_value (hport : i.port = .register) (hvalue : i.wellFormed = false) (hdeaf : deaf s = false)
    (hheld : s.held = none) : exec i s = .next (takeFault .configError s) := by
  rw [exec_of_register hport, hvalue]
  simp [registerCommand, hdeaf, hheld]

/-- Settles O11: the value 0 of either command lies outside R92's domain. -/
theorem zeroIntervalIsConfigError : Obligations.ZeroIntervalIsConfigError := by
  intro s hf ha hheld
  have hdeaf := deaf_eq_false hf ha
  exact ⟨exec_of_bad_value rfl rfl hdeaf hheld, exec_of_bad_value rfl rfl hdeaf hheld⟩

end Sys2Proof.Machine
end

section
/-! SUPPORT. The register writes and reads (spec/40_register_writes.md): what each command's effect makes of the caught-up
state. A channel register is one argument for the four channels and the six registers of R93; the value maps of PER and VOL
(R121, R123) and the start of DAT (R127) are facts of their own. -/

namespace Sys2Proof.Machine

/-! ## A command that completes -/

/-- A register-port command with a value in its domain completes as its effect (R120). -/
theorem completesAs_of_effect {cmd : Instr} {t : State → State} (hport : cmd.port = .register)
    (hvalue : cmd.wellFormed = true) (ht : effect cmd = t) : completesAs cmd t := by
  subst ht
  intro s h
  rw [exec_of_register hport, hvalue]
  exact registerCommand_completes h

/-- The effect of the write of register `r`, in R93's order, as the operation that the four channels share. -/
def writeChannel (r : Fin 6) : ChanIdx → Word → State → State :=
  match r with
  | 0 => writeLch
  | 1 => writeLcl
  | 2 => writeLen
  | 3 => writePer
  | 4 => writeVol
  | 5 => writeDat

theorem effect_channelWrite (c : ChanIdx) (r : Fin 6) (data : Word) :
    effect (channelWrite c r data) = writeChannel r c data := by
  fin_cases c <;> fin_cases r <;> rfl

theorem channelWrite_wellFormed (c : ChanIdx) (r : Fin 6) (data : Word) : (channelWrite c r data).wellFormed = true := by
  fin_cases c <;> fin_cases r <;> rfl

theorem completesAs_channelWrite (c : ChanIdx) (r : Fin 6) (data : Word) :
    completesAs (channelWrite c r data) (writeChannel r c data) :=
  completesAs_of_effect (channelWrite_port c r data) (channelWrite_wellFormed c r data) (effect_channelWrite c r data)

/-- The upper half of a REGW word is the offset: its class and `W[27:25]` are 0 (R92). -/
theorem encodeRegw_eq (off : BitVec 9) (data : Word) : encodeRegw off data = off.setWidth 16 ++ data :=
  congrArg (· ++ data) (BitVec.setWidth_eq_append (show 9 ≤ 16 by decide)).symm

theorem encode_channelWrite_eq (c : ChanIdx) (r : Fin 6) (data : Word) :
    encode (channelWrite c r data) = (channelOffset c r).setWidth 16 ++ data := by
  rw [encode_channelWrite, encodeRegw_eq]

/-- The write of register `r` on each of the four channels: its word, and what it completes as. -/
theorem channelWrite_on_every_channel (r : Fin 6) (data : Word) :
    (encode (channelWrite 0 r data) = (channelOffset 0 r).setWidth 16 ++ data ∧
      encode (channelWrite 1 r data) = (channelOffset 1 r).setWidth 16 ++ data ∧
      encode (channelWrite 2 r data) = (channelOffset 2 r).setWidth 16 ++ data ∧
      encode (channelWrite 3 r data) = (channelOffset 3 r).setWidth 16 ++ data) ∧
    completesAs (channelWrite 0 r data) (writeChannel r 0 data) ∧
    completesAs (channelWrite 1 r data) (writeChannel r 1 data) ∧
    completesAs (channelWrite 2 r data) (writeChannel r 2 data) ∧
    completesAs (channelWrite 3 r data) (writeChannel r 3 data) := by
  have henc (c : ChanIdx) := encode_channelWrite_eq c r data
  have hrun (c : ChanIdx) := completesAs_channelWrite c r data
  exact ⟨⟨henc 0, henc 1, henc 2, henc 3⟩, hrun 0, hrun 1, hrun 2, hrun 3⟩

/-! ## The period map -/

/-- `x` raised to the floor `b` where the clamp is active. -/
def floorWhen (active : Prop) [Decidable active] (b x : Nat) : Nat := if active ∧ x < b then b else x

section

variable (active : Prop) [Decidable active] (b x : Nat)

theorem le_floorWhen : x ≤ floorWhen active b x := by
  unfold floorWhen
  split <;> omega

theorem floor_le_floorWhen (h : active) : b ≤ floorWhen active b x := by
  unfold floorWhen
  simp only [h, true_and]
  split <;> omega

theorem floorWhen_lt {n : Nat} (hb : b < n) (hx : x < n) : floorWhen active b x < n := by
  unfold floorWhen
  split <;> assumption

end

/-- The period that a PER value asks for before any clamp: 0 stands for the longest (R121). -/
def askedPeriod (v : Word) : Nat := if v.toNat = 0 then 65535 else v.toNat

theorem askedPeriod_pos (v : Word) : 1 ≤ askedPeriod v := by
  unfold askedPeriod
  split <;> omega

theorem askedPeriod_lt (v : Word) : askedPeriod v < 2 ^ 16 := by
  have hv := v.isLt
  unfold askedPeriod
  split <;> omega

/-- R121's map as a number: the asked period, then the two floors in order. -/
theorem perRule_toNat (s : State) (v : Word) :
    (perRule s v).toNat =
      floorWhen (s.cfg.fastTier.val < 3) (s.maxhpos.toNat / 2)
        (floorWhen (s.cfg.safetyClamp = true) 16 (askedPeriod v)) := by
  have hhalf : s.maxhpos.toNat / 2 < 2 ^ 16 := by
    have := s.maxhpos.isLt
    omega
  exact Nat.mod_eq_of_lt (floorWhen_lt _ _ _ hhalf (floorWhen_lt _ _ _ (by decide) (askedPeriod_lt v)))

/-- Settles O27: each clamp only raises the period, and raises it at least to its own floor. -/
theorem perRuleClamps : Obligations.PerRuleClamps := by
  intro s v
  refine ⟨perRule_toNat s v, ?_, fun hsafe => ?_, fun hfast => ?_⟩ <;> rw [perRule_toNat]
  · exact (askedPeriod_pos v).trans ((le_floorWhen _ _ _).trans (le_floorWhen _ _ _))
  · exact (floor_le_floorWhen _ _ _ hsafe).trans (le_floorWhen _ _ _)
  · exact floor_le_floorWhen _ _ _ hfast

/-! ## The volume map -/

theorem volRule_toNat (v : Word) : (volRule v).toNat = if v.getLsbD 6 then 63 else v.toNat % 64 := by
  unfold volRule
  split
  · rfl
  · rw [BitVec.toNat_setWidth, BitVec.extractLsb'_toNat]
    simp only [Nat.shiftRight_zero]
    omega

/-! ## The start of a channel by its data word -/

theorem datStarts_iff (c : ChanIdx) (s : State) :
    datStarts c s = true ↔ (s.chan c).state = 0 ∧ s.intreq.getLsbD c.val = false := by
  simp [datStarts, irq]

/-- R127: a channel that starts takes state 2 and raises its request bit; in both cases `dat` and `evtime` are written. -/
theorem writeDat_eq (c : ChanIdx) (data : Word) :
    writeDat c data = fun s =>
      if (s.chan c).state = 0 ∧ s.intreq.getLsbD c.val = false then
        { s.modChan c (fun k => { k with dat := data, state := 2, evtime := k.per.setWidth 32 }) with
          intreq := s.intreq ||| (1#4 <<< c.val) }
      else s.modChan c fun k => { k with dat := data, evtime := k.per.setWidth 32 } := by
  funext s
  unfold writeDat
  split
  next hstart =>
    rw [(datStarts_iff c s).mpr hstart]
    rfl
  next hno =>
    rw [Bool.eq_false_iff.mpr (mt (datStarts_iff c s).mp hno)]
    rfl

/-! ## The channel registers -/

/-- Settles O20: the DAT write of each channel, split by its start condition. -/
theorem audDatStoresAndStarts : Obligations.AudDatStoresAndStarts := by
  intro data
  have h := channelWrite_on_every_channel 5 data
  simp only [writeChannel, writeDat_eq] at h
  exact h

/-- Settles O15: `writeLch` on each channel. -/
theorem audLchSetsHighHalf : Obligations.AudLchSetsHighHalf := channelWrite_on_every_channel 0

/-- Settles O16: `writeLcl` on each channel, `lclRule` being R126's mask. -/
theorem audLclSetsLowHalfEven : Obligations.AudLclSetsLowHalfEven := channelWrite_on_every_channel 1

/-- Settles O17: `writeLen` on each channel. -/
theorem audLenSetsTheLatch : Obligations.AudLenSetsTheLatch := channelWrite_on_every_channel 2

/-- Settles O18: `writePer` on each channel, `perRule` taken of the caught-up state. -/
theorem audPerSetsThePeriod : Obligations.AudPerSetsThePeriod := channelWrite_on_every_channel 3

/-- Settles O19: the volume the statement names by its value is the map's. -/
theorem audVolSetsTheVolume : Obligations.AudVolSetsTheVolume := by
  intro data v hv
  obtain rfl : v = volRule data := BitVec.eq_of_toNat_eq (hv.trans (volRule_toNat data).symm)
  exact channelWrite_on_every_channel 4 data

/-! ## The control registers -/

theorem adkMaskOf_eq (a : BitVec 15) (c : ChanIdx) :
    adkMaskOf a c = if a.getLsbD c.val = true ∨ a.getLsbD (c.val + 4) = true then 0x00000000 else 0xFFFFFFFF := by
  simp [adkMaskOf]

/-- Settles O21: the update is R128's SET/CLR, and each of the four masks is R45's function of its result. -/
theorem adkconUpdatesBitsAndMasks : Obligations.AdkconUpdatesBitsAndMasks := by
  intro data
  refine ⟨encodeRegw_eq _ data, completesAs_of_effect rfl rfl (funext fun u => ?_)⟩
  simp only [effect, effectAdkcon, recomputeMasks, adkMaskOf_eq]
  rfl

/-- Settles O22: `effectDmacon` is R129's SET/CLR on the stored bits. -/
theorem dmaconUpdatesBits : Obligations.DmaconUpdatesBits := fun data =>
  ⟨encodeRegw_eq _ data, completesAs_of_effect rfl rfl rfl⟩

/-- Settles O23: `effectIntreq` is R130's SET/CLR on the four request bits. -/
theorem intreqUpdatesRequestBits : Obligations.IntreqUpdatesRequestBits := fun data =>
  ⟨encodeRegw_eq _ data, completesAs_of_effect rfl rfl rfl⟩

/-! ## The reads -/

/-- INTREQR reads the four request bits at 10..7 (R131). -/
theorem intreqWord_eq (s : State) : intreqWord s = BitVec.ofNat 16 (s.intreq.toNat * 2 ^ 7) := by
  rw [intreqWord, BitVec.shiftLeft_eq_mul_twoPow, ← BitVec.ofNat_toNat, BitVec.ofNat_mul]
  rfl

/-- Settles O24: each answer is the register, zero-extended. -/
theorem readsAnswerTheRegister : Obligations.ReadsAnswerTheRegister := by
  simp only [Obligations.ReadsAnswerTheRegister, BitVec.ofNat_toNat, ← intreqWord_eq]
  exact ⟨⟨rfl, rfl, rfl⟩, completesAs_of_effect rfl rfl rfl, completesAs_of_effect rfl rfl rfl,
    completesAs_of_effect rfl rfl rfl⟩

end Sys2Proof.Machine
end

section
/-! SUPPORT. The channel state machine (spec/41_channel_state_machine.md R160 to R169): what each handler and the line
service make of a state, as the pseudocode writes it. States 2 and 3 share one shape, a step of the channel's own record
with an optional request and an optional change of the next channel's record; a line service is one change of the channel's
record after the start, if there is one. -/

namespace Sys2Proof.Machine

/-! ## The operations the handlers share -/

/-- Two changes of a record that agree on the record there make one state. -/
theorem modChan_congr {s : State} {c : ChanIdx} {f g : Channel → Channel} (h : f (s.chan c) = g (s.chan c)) :
    s.modChan c f = s.modChan c g :=
  congrArg (fun k => { s with ch := s.ch.set c k }) h

theorem raiseIrqIf_eq (b : Bool) (c : ChanIdx) (s : State) :
    raiseIrqIf b c s = { s with intreq := if b then s.intreq ||| BitVec.twoPow 4 c.val else s.intreq } := by
  cases b <;> rfl

theorem soundOverride_eq (s : State) (k : Channel) :
    soundOverride s k = { k with per := if s.cfg.produceSound.val = 0 then 65535 else k.per } := by
  unfold soundOverride
  split <;> rfl

/-- R161's `napnav`, in the attachment bits themselves. -/
theorem napnav_iff {s : State} {c : ChanIdx} :
    napnav s c = true ↔ s.adkcon.getLsbD c.val = true ∨ s.adkcon.getLsbD (c.val + 4) = false := by
  simp [napnav, audav, audap]

/-- A flag raised under a condition, as the pseudocode's `if p: flag <- 1`. -/
theorem or_eq_ite {p : Prop} [Decidable p] {flag b : Bool} (h : b = true ↔ p) :
    (flag || b) = if p then true else flag := by
  split
  next hp => rw [h.mpr hp, Bool.or_true]
  next hp => rw [Bool.eq_false_iff.mpr (mt h.mp hp), Bool.or_false]

/-! ## The dispatch on the state (R169) -/

section

variable {c : ChanIdx} {s : State}

theorem advanceChannel_of_one (h : (s.chan c).state = 1) : advanceChannel c s = handler1 c s := if_pos h

theorem advanceChannel_of_five (h : (s.chan c).state = 5) : advanceChannel c s = handler5 c s := by
  simp [advanceChannel, h]

theorem advanceChannel_of_two (h : (s.chan c).state = 2) : advanceChannel c s = handler2 c s := by
  simp [advanceChannel, h]

theorem advanceChannel_of_three (h : (s.chan c).state = 3) : advanceChannel c s = handler3 c s := by
  simp [advanceChannel, h]

theorem advanceChannel_of_defect (h1 : (s.chan c).state ≠ 1) (h2 : (s.chan c).state ≠ 2) (h3 : (s.chan c).state ≠ 3)
    (h5 : (s.chan c).state ≠ 5) : advanceChannel c s = handlerDefect c s := by
  rw [advanceChannel, if_neg h1, if_neg h5, if_neg h2, if_neg h3]

end

/-- Settles O41: no handler but the defect's answers for the other states. -/
theorem defectStateBecomesIdle : Obligations.DefectStateBecomesIdle :=
  fun _ _ h1 h2 h3 h5 => advanceChannel_of_defect h1 h2 h3 h5

/-! ## States 1 and 5 -/

theorem armWlen_eq (k : Channel) : armWlen k = if k.wlen ≠ 1 then k.wlen - 1 else k.wlen := by
  simp only [ne_eq, ite_not]
  exact ite_congr rfl Eq.symm fun _ => rfl

/-- R162's record: the word at the pointer waits in `nextdat`, the pointer and the counter move on. -/
theorem handler1_eq (c : ChanIdx) (s : State) :
    handler1 c s =
      { s.modChan c (fun k =>
          { k with
            evtime := s.maxhpos.setWidth 32
            state := 5
            wlen := if k.wlen ≠ 1 then k.wlen - 1 else k.wlen
            nextdat := memRead s k.pt
            pt := k.pt + 2 }) with
        intreq := s.intreq ||| BitVec.twoPow 4 c.val } := by
  simp only [← armWlen_eq]
  rfl

/-- Settles O36: the handler's word is `MemRead` at the pointer. -/
theorem stateOneArmsTheChannel : Obligations.StateOneArmsTheChannel := fun c s hstate _ =>
  (advanceChannel_of_one hstate).trans (handler1_eq c s)

/-- Settles O37: the override fixes the period before the interval starts, and `napnav` asks for the refill. -/
theorem stateFivePlaysTheFirstByte : Obligations.StateFivePlaysTheFirstByte := by
  intro c s hstate
  rw [advanceChannel_of_five hstate]
  refine modChan_congr ?_
  simp only [soundOverride_eq, ← or_eq_ite napnav_iff]
  rfl

/-! ## The shape of states 2 and 3 -/

/-- The state with the next channel's record changed by `f`; after channel 3 there is none (R164, R165). -/
def modNext (c : ChanIdx) (f : Channel → Channel) (s : State) : State :=
  if h : c.val + 1 < 4 then s.modChan ⟨c.val + 1, h⟩ f else s

theorem modNext_chan (c d : ChanIdx) (f : Channel → Channel) (s : State) :
    (modNext c f s).chan d = if d.val = c.val + 1 then f (s.chan d) else s.chan d := by
  unfold modNext
  split
  next h =>
    rw [modChan_chan]
    refine ite_congr (propext Fin.ext_iff) (fun hd => ?_) fun _ => rfl
    rw [show d = ⟨c.val + 1, h⟩ from Fin.ext hd]
  next h => rw [if_neg (by omega)]

/-- Only channel records move. -/
theorem modNext_frame (c : ChanIdx) (f : Channel → Channel) (s : State) :
    ∃ q : Quad Channel, modNext c f s = { s with ch := q } := by
  unfold modNext
  split
  · exact ⟨_, rfl⟩
  · exact ⟨s.ch, rfl⟩

theorem attachPer_eq_modNext (c : ChanIdx) (v : Word) (s : State) :
    attachPer c v s = modNext c (fun k => { k with per := perRule s v }) s := by
  fin_cases c <;> rfl

theorem attachVol_eq_modNext (c : ChanIdx) (v : Word) (s : State) :
    attachVol c v s = modNext c (fun k => { k with vol := volRule v }) s := by
  fin_cases c <;> rfl

/-- A step of a channel's own record by `own`, with its request raised if `raise`, and the next channel's record changed by
`next` if `attach`: what states 2 and 3 do (R164, R165). -/
def attachedStep (attach raise : Bool) (c : ChanIdx) (own next : Channel → Channel) (s : State) : State :=
  if attach then modNext c next ((raiseIrqIf raise c s).modChan c own) else (raiseIrqIf raise c s).modChan c own

section

variable (attach raise : Bool) (c : ChanIdx) (own next : Channel → Channel) (s : State)

theorem attachedStep_chan_self : (attachedStep attach raise c own next s).chan c = own (s.chan c) := by
  unfold attachedStep
  split
  · rw [modNext_chan, if_neg (by omega), modChan_chan_self, raiseIrqIf_chan]
  · rw [modChan_chan_self, raiseIrqIf_chan]

theorem attachedStep_chan_of_ne {d : ChanIdx} (hd : d ≠ c) :
    (attachedStep attach raise c own next s).chan d =
      if attach = true ∧ d.val = c.val + 1 then next (s.chan d) else s.chan d := by
  cases attach <;> simp [attachedStep, modNext_chan, modChan_chan_of_ne _ _ hd]

/-- Outside the channel records the step changes the request bit alone. -/
theorem attachedStep_frame :
    ∃ q : Quad Channel, attachedStep attach raise c own next s =
      { s with ch := q, intreq := if raise then s.intreq ||| BitVec.twoPow 4 c.val else s.intreq } := by
  unfold attachedStep
  rw [raiseIrqIf_eq]
  split
  · obtain ⟨q, hq⟩ := modNext_frame c next _
    exact ⟨q, hq⟩
  · exact ⟨_, rfl⟩

theorem attachedStep_intreq :
    (attachedStep attach raise c own next s).intreq =
      if raise then s.intreq ||| BitVec.twoPow 4 c.val else s.intreq := by
  obtain ⟨q, hq⟩ := attachedStep_frame attach raise c own next s
  rw [hq]

theorem attachedStep_rest :
    { attachedStep attach raise c own next s with ch := s.ch, intreq := s.intreq } = s := by
  obtain ⟨q, hq⟩ := attachedStep_frame attach raise c own next s
  rw [hq]

/-- A change of the channel's own record before the step is part of the step. -/
theorem attachedStep_modChan (first : Channel → Channel) :
    attachedStep attach raise c own next (s.modChan c first) =
      attachedStep attach raise c (fun k => own (first k)) next s := by
  have hown : (raiseIrqIf raise c (s.modChan c first)).modChan c own =
      (raiseIrqIf raise c s).modChan c fun k => own (first k) := by
    have hcomm : raiseIrqIf raise c (s.modChan c first) = (raiseIrqIf raise c s).modChan c first := by
      cases raise <;> rfl
    rw [hcomm, modChan_modChan]
  rw [attachedStep, hown]
  rfl

end

/-! ## State 2 -/

/-- R164's record: the low byte of the old word, then the next word under period attachment. -/
def secondHalf (s : State) (attach : Bool) (k : Channel) : Channel :=
  let p := if s.cfg.produceSound.val = 0 then 65535 else k.per
  { k with
    per := p
    evtime := p.setWidth 32
    lastSample0 := k.currentSample
    lastSample1 := k.lastSample0
    lastSample2 := k.lastSample1
    currentSample := k.dat.extractLsb' 0 8
    state := 3
    intreq2 := if attach then false else k.intreq2
    dat := if attach then k.nextdat else k.dat
    dataWritten := if attach = true ∧ k.dmaen = true then true else k.dataWritten }

theorem advance2_eq (c : ChanIdx) (s : State) : advance2 c s = s.modChan c (secondHalf s false) := by
  refine modChan_congr ?_
  rw [soundOverride_eq]
  rfl

/-- The period attachment's own steps (R164), over the record that `advance2` leaves. -/
theorem periodAttach_eq (c : ChanIdx) (s : State) :
    periodAttach c s =
      attachedStep true ((s.chan c).intreq2 && (s.chan c).dmaen) c
        (fun k => { k with intreq2 := false, dat := k.nextdat, dataWritten := k.dataWritten || k.dmaen })
        (fun k => { k with per := perRule s (s.chan c).nextdat }) s := by
  rw [periodAttach, attachPer_eq_modNext, raiseIrqIf_eq, attachedStep, raiseIrqIf_eq]
  rfl

/-- The attachment's part of the record, made after the part that every channel runs. -/
theorem secondHalf_attached (s : State) (k : Channel) :
    { secondHalf s false k with
      intreq2 := false
      dat := k.nextdat
      dataWritten := k.dataWritten || k.dmaen } = secondHalf s true k := by
  simp only [secondHalf, Bool.false_eq_true, false_and, true_and, if_false, if_true, or_eq_ite Iff.rfl]

/-- R164 as one step: with period attachment the request, the next word and the next channel's period. -/
theorem handler2_eq (c : ChanIdx) (s : State) :
    handler2 c s =
      attachedStep (audap s c) (audap s c && ((s.chan c).intreq2 && (s.chan c).dmaen)) c (secondHalf s (audap s c))
        (fun k => { k with per := perRule s (s.chan c).nextdat }) s := by
  unfold handler2
  rw [advance2_eq]
  cases audap s c
  case false => rfl
  case true =>
    rw [if_pos rfl, periodAttach_eq, attachedStep_modChan, modChan_chan_self]
    exact congrArg (attachedStep true _ c · _ s) (funext (secondHalf_attached s))

/-- Settles O38: the parts of `attachedStep`, with period attachment. -/
theorem stateTwoPlaysTheLowByte : Obligations.StateTwoPlaysTheLowByte := by
  intro c s hstate
  simp only [advanceChannel_of_two hstate, handler2_eq]
  refine ⟨attachedStep_chan_self .., fun d hd => attachedStep_chan_of_ne _ _ _ _ _ _ hd, ?_, attachedStep_rest ..⟩
  rw [attachedStep_intreq]
  exact if_congr (by simp only [Bool.and_eq_true, audap]) rfl rfl

/-! ## State 3 -/

/-- Settles O39: the stop needs the override's period for its countdown, and touches one record. -/
theorem stateThreeStops : Obligations.StateThreeStops := by
  intro c s hstate hdma hreq
  rw [advanceChannel_of_three hstate, handler3, if_pos ⟨hdma, hreq⟩]
  refine modChan_congr ?_
  rw [stopChannel, soundOverride_eq]
  rfl

/-- R165's else branch as one step: the next channel's volume takes the word that was waiting. -/
theorem handler3_eq {c : ChanIdx} {s : State} (hgo : ¬((s.chan c).dmaen = false ∧ irq s c = true)) :
    handler3 c s =
      attachedStep (audav s c) (irq3 s c) c (continueChannel s c)
        (fun k => { k with vol := volRule (s.chan c).nextdat }) s := by
  rw [handler3, if_neg hgo]
  simp only [attachVol_eq_modNext]
  rfl

theorem continueChannel_eq (s : State) (c : ChanIdx) (k : Channel) :
    continueChannel s c k =
      let p := if s.cfg.produceSound.val = 0 then 65535 else k.per
      { k with
        per := p
        evtime := p.setWidth 32
        state := 2
        intreq2 := false
        dat := k.nextdat
        lastSample0 := k.currentSample
        lastSample1 := k.lastSample0
        lastSample2 := k.lastSample1
        currentSample := k.nextdat.extractLsb' 8 8
        dataWritten := if k.dmaen = true ∧ napnav s c = true then true else k.dataWritten } := by
  rw [continueChannel, soundOverride_eq, ← or_eq_ite Bool.and_eq_true_iff]
  rfl

theorem irq3_iff {s : State} {c : ChanIdx} :
    irq3 s c = true ↔ ((s.chan c).intreq2 = true ∧ (s.chan c).dmaen = true ∧ napnav s c = true) ∨
      (napnav s c = true ∧ (s.chan c).dmaen = false) := by
  simp [irq3, and_assoc]

/-- Settles O40: the parts of `attachedStep`, with volume attachment. -/
theorem stateThreePlaysTheNextWord : Obligations.StateThreePlaysTheNextWord := by
  intro c s hstate hgo
  simp only [advanceChannel_of_three hstate, handler3_eq hgo]
  refine ⟨(attachedStep_chan_self ..).trans (continueChannel_eq ..),
    fun d hd => attachedStep_chan_of_ne _ _ _ _ _ _ hd, ?_, attachedStep_rest ..⟩
  rw [attachedStep_intreq]
  exact if_congr irq3_iff rfl rfl

/-! ## The line service -/

/-- What R167 makes of a record once the start is over: `dmaen` takes the enable `e`, and a requested word is fetched. -/
def serviceChannel (s : State) (e : Bool) (k : Channel) : Channel :=
  if k.dataWritten = true ∧ e = true then
    { k with
      dmaen := true
      dataWritten := false
      nextdat := memRead s k.pt
      pt := if k.wlen = 1 then k.lc else k.pt + 2
      wlen := if k.wlen = 1 then k.len else k.wlen - 1
      intreq2 := if k.wlen = 1 then true else k.intreq2 }
  else { k with dmaen := e }

/-- R168, field by field. -/
theorem refill_eq (c : ChanIdx) (s : State) :
    refill c s = s.modChan c fun k =>
      { k with
        dataWritten := false
        nextdat := memRead s k.pt
        pt := if k.wlen = 1 then k.lc else k.pt + 2
        wlen := if k.wlen = 1 then k.len else k.wlen - 1
        intreq2 := if k.wlen = 1 then true else k.intreq2 } := by
  refine modChan_congr ?_
  dsimp only
  split <;> rfl

/-- R167 after the start: the sampled enable and the refill are one change of the record. -/
theorem lineService_eq (c : ChanIdx) (s : State) :
    lineService c s = (dmaStart c s).modChan c (serviceChannel (dmaStart c s) (ena s c)) := by
  unfold lineService
  dsimp only
  rw [modChan_chan_self]
  split
  next h =>
    rw [refill_eq, modChan_modChan]
    refine modChan_congr ?_
    rw [serviceChannel, if_pos h, ← h.2]
    rfl
  next h =>
    refine modChan_congr ?_
    rw [serviceChannel, if_neg h]

theorem ena_iff {s : State} {c : ChanIdx} :
    ena s c = true ↔ s.dmacon.getLsbD 9 = true ∧ s.dmacon.getLsbD c.val = true := Bool.and_eq_true_iff

/-- The start sequence and the state-1 handler together (R167, R162): the block's registers are the latches. -/
theorem dmaStart_of_idle {c : ChanIdx} {s : State} (hidle : (s.chan c).state = 0) (hena : ena s c = true) :
    dmaStart c s =
      (raiseIrq c s).modChan c fun k =>
        { k with
          state := 5
          evtime := s.maxhpos.setWidth 32
          wlen := if k.len ≠ 1 then k.len - 1 else 1
          nextdat := memRead s k.lc
          pt := k.lc + 2
          dmaen := true
          dataWritten := false
          intreq2 := false } := by
  have hone : ((s.modChan c startChannel).chan c).state = 1 := by rw [modChan_chan_self]; rfl
  have hirq : raiseIrq c (s.modChan c startChannel) = (raiseIrq c s).modChan c startChannel := rfl
  rw [dmaStart, if_pos ⟨hidle, hena⟩, advanceChannel_of_one hone, handler1, hirq, modChan_modChan]
  simp only [ne_eq, ite_not]
  rfl

/-- Settles O42: the start clears `dataWritten`, so the service that follows it asks for no refill. -/
theorem lineServiceStartsIdleChannel : Obligations.LineServiceStartsIdleChannel := by
  intro c s hidle hmaster hchan _
  have hena : ena s c = true := ena_iff.mpr ⟨hmaster, hchan⟩
  rw [lineService_eq, dmaStart_of_idle hidle hena, modChan_modChan, hena]
  rfl

/-- Settles O43: without a start the service is its change of the one record. -/
theorem lineServiceSamplesEnableAndRefills : Obligations.LineServiceSamplesEnableAndRefills := by
  rintro c s e rfl hno _
  rw [lineService_eq, show dmaStart c s = s from if_neg hno]
  rfl

end Sys2Proof.Machine
end

section
/-! SUPPORT. The scheduler (spec/42_scheduler.md): what an iteration moves, runs and conserves (R201 to R205), that a
catch-up ends and no step stops, that a catch-up may be made in two parts (R215), and the timing commands (R210 to R214).
The nearest event, without the budget, is a quantity of its own: it decides where a shorter budget cuts a longer catch-up. -/

namespace Sys2Proof.Machine

/-! ## The nearest event -/

/-- The cycles to the nearest event: the least of the sample countdown and the active channels' countdowns (R201). -/
def untilEvent (s : State) : Nat :=
  bid s.ch.q3 (bid s.ch.q2 (bid s.ch.q1 (bid s.ch.q0 s.nextSampleEvtime.toNat)))

theorem active_iff {k : Channel} : k.active = true ↔ k.state ≠ 0 := bne_iff_ne

theorem bid_of_idle {k : Channel} (h : k.state = 0) (b : Nat) : bid k b = b :=
  if_neg fun hbid => active_iff.mp hbid.1 h

theorem bid_of_active {k : Channel} (h : k.state ≠ 0) (b : Nat) : bid k b = min k.evtime.toNat b := by
  simp only [bid, active_iff.mpr h, true_and]
  split <;> omega

theorem le_bid_iff {k : Channel} {n b : Nat} : n ≤ bid k b ↔ n ≤ b ∧ (k.state ≠ 0 → n ≤ k.evtime.toNat) := by
  by_cases h : k.state = 0
  · simp [bid_of_idle h, h]
  · rw [bid_of_active h, le_min_iff, and_comm, imp_iff_right h]

theorem bid_min (k : Channel) (a b : Nat) : bid k (min a b) = min a (bid k b) :=
  eq_of_forall_le_iff fun n => by simp only [le_bid_iff, le_min_iff, and_assoc]

/-- The budget is one more bound on the nearest event (R201). -/
theorem best_eq (s : State) : best s = min s.pendingCycles.toNat (untilEvent s) := by
  have hstart : (if s.nextSampleEvtime.toNat < s.pendingCycles.toNat then s.nextSampleEvtime.toNat
      else s.pendingCycles.toNat) = min s.pendingCycles.toNat s.nextSampleEvtime.toNat := by
    split <;> omega
  rw [best, untilEvent, hstart, bid_min, bid_min, bid_min, bid_min]

theorem le_untilEvent_iff {s : State} {n : Nat} :
    n ≤ untilEvent s ↔
      n ≤ s.nextSampleEvtime.toNat ∧ ∀ c : ChanIdx, (s.chan c).state ≠ 0 → n ≤ (s.chan c).evtime.toNat := by
  simp only [untilEvent, le_bid_iff, and_assoc, Fin.forall_fin_succ, IsEmpty.forall_iff, and_true]
  rfl

/-- The nearest event is one of the countdowns. -/
theorem untilEvent_attained (s : State) :
    untilEvent s = s.nextSampleEvtime.toNat ∨
      ∃ c : ChanIdx, (s.chan c).state ≠ 0 ∧ untilEvent s = (s.chan c).evtime.toNat := by
  obtain ⟨hnext, hchan⟩ := le_untilEvent_iff.mp (le_refl (untilEvent s))
  by_contra hno
  push Not at hno
  obtain ⟨hne, hnec⟩ := hno
  refine Nat.not_succ_le_self (untilEvent s) (le_untilEvent_iff.mpr ⟨?_, fun c hc => ?_⟩)
  · omega
  · have := hchan c hc
    have := hnec c hc
    omega

theorem best_le (s : State) :
    best s ≤ s.pendingCycles.toNat ∧ best s ≤ s.nextSampleEvtime.toNat ∧
      ∀ c : ChanIdx, (s.chan c).state ≠ 0 → best s ≤ (s.chan c).evtime.toNat := by
  obtain ⟨hbudget, hevent⟩ := le_min_iff.mp (best_eq s).le
  exact ⟨hbudget, le_untilEvent_iff.mp hevent⟩

theorem best_attained (s : State) :
    best s = s.pendingCycles.toNat ∨ best s = s.nextSampleEvtime.toNat ∨
      ∃ c : ChanIdx, (s.chan c).state ≠ 0 ∧ best s = (s.chan c).evtime.toNat := by
  rw [best_eq]
  rcases min_choice s.pendingCycles.toNat (untilEvent s) with hmin | hmin <;> rw [hmin]
  · exact .inl rfl
  · exact .inr (untilEvent_attained s)

theorem untilEvent_pos_iff {s : State} :
    0 < untilEvent s ↔ s.nextSampleEvtime ≠ 0 ∧ ∀ c : ChanIdx, ChannelSettled (s.chan c) := by
  have hpos {w : Nat} (x : BitVec w) : 0 + 1 ≤ x.toNat ↔ x ≠ 0 :=
    ⟨fun h h0 => Nat.ne_of_gt h (congrArg BitVec.toNat h0), BitVec.toNat_pos_of_ne_zero⟩
  rw [← Nat.succ_le_iff, Nat.succ_eq_add_one, le_untilEvent_iff, hpos]
  simp only [hpos, ChannelSettled, or_iff_not_imp_left]

/-! ## The fall of the countdowns -/

theorem toNat_ofNat_sub {w : Nat} (x : BitVec w) (n : Nat) : (BitVec.ofNat w (x.toNat - n)).toNat = x.toNat - n := by
  rw [BitVec.toNat_ofNat, Nat.mod_eq_of_lt (lt_of_le_of_lt (Nat.sub_le _ _) x.isLt)]

theorem elapse_pendingCycles_toNat (n : Nat) (s : State) :
    (elapse n s).pendingCycles.toNat = s.pendingCycles.toNat - n := toNat_ofNat_sub _ _

theorem elapse_nextSampleEvtime_toNat (n : Nat) (s : State) :
    (elapse n s).nextSampleEvtime.toNat = s.nextSampleEvtime.toNat - n := toNat_ofNat_sub _ _

theorem elapseChannel_of_idle {k : Channel} (h : k.state = 0) (n : Nat) : elapseChannel n k = k := by
  rw [elapseChannel, if_neg (mt active_iff.mp (not_not_intro h))]

theorem elapseChannel_of_active {k : Channel} (h : k.state ≠ 0) (n : Nat) :
    elapseChannel n k = { k with evtime := BitVec.ofNat 32 (k.evtime.toNat - n) } := by
  rw [elapseChannel, if_pos (active_iff.mpr h)]

theorem elapseChannel_state (n : Nat) (k : Channel) : (elapseChannel n k).state = k.state := by
  unfold elapseChannel
  split <;> rfl

theorem elapseChannel_evtime_toNat {k : Channel} (h : k.state ≠ 0) (n : Nat) :
    (elapseChannel n k).evtime.toNat = k.evtime.toNat - n := by
  rw [elapseChannel_of_active h]
  exact toNat_ofNat_sub _ _

/-- Two falls in a row are one. -/
theorem elapseChannel_elapseChannel (m n : Nat) (k : Channel) :
    elapseChannel n (elapseChannel m k) = elapseChannel (m + n) k := by
  by_cases h : k.state = 0
  · simp only [elapseChannel_of_idle h]
  · rw [elapseChannel_of_active ((elapseChannel_state m k).symm ▸ h), elapseChannel_evtime_toNat h,
      elapseChannel_of_active h, elapseChannel_of_active h, Nat.sub_sub]

theorem bid_elapseChannel (n : Nat) (k : Channel) (b : Nat) : bid (elapseChannel n k) (b - n) = bid k b - n := by
  by_cases h : k.state = 0
  · rw [elapseChannel_of_idle h, bid_of_idle h, bid_of_idle h]
  · rw [bid_of_active ((elapseChannel_state n k).symm ▸ h), bid_of_active h, elapseChannel_evtime_toNat h]
    omega

theorem untilEvent_elapse (n : Nat) (s : State) : untilEvent (elapse n s) = untilEvent s - n := by
  rw [untilEvent, elapse_nextSampleEvtime_toNat]
  simp only [elapse_ch, Quad.map, bid_elapseChannel]
  rfl

/-! ## A channel event and the other channels -/

/-- The step from `s` to `t` changes of the channels other than `c` at most the next one's period or volume (R171). -/
def SparesOthers (c : ChanIdx) (s t : State) : Prop :=
  ∀ d : ChanIdx, d ≠ c →
    t.chan d = { s.chan d with per := (t.chan d).per, vol := (t.chan d).vol } ∧
      (d.val ≠ c.val + 1 → t.chan d = s.chan d)

theorem sparesOthers_of_eq {c : ChanIdx} {s t : State} (h : ∀ d : ChanIdx, d ≠ c → t.chan d = s.chan d) :
    SparesOthers c s t := fun d hd => by
  rw [h d hd]
  exact ⟨rfl, fun _ => rfl⟩

theorem modChan_sparesOthers (c : ChanIdx) (s : State) (f : Channel → Channel) : SparesOthers c s (s.modChan c f) :=
  sparesOthers_of_eq fun _ hd => modChan_chan_of_ne s f hd

/-- Attachment reaches the next channel alone, and there what `next` changes. -/
theorem attachedStep_sparesOthers {next : Channel → Channel}
    (hnext : ∀ k, next k = { k with per := (next k).per, vol := (next k).vol }) (attach raise : Bool) (c : ChanIdx)
    (own : Channel → Channel) (s : State) : SparesOthers c s (attachedStep attach raise c own next s) := by
  intro d hd
  rw [attachedStep_chan_of_ne _ _ _ _ _ _ hd]
  split
  next hattached => exact ⟨hnext _, fun hfar => absurd hattached.2 hfar⟩
  next => exact ⟨rfl, fun _ => rfl⟩

theorem handler3_sparesOthers (c : ChanIdx) (s : State) : SparesOthers c s (handler3 c s) := by
  by_cases hstop : (s.chan c).dmaen = false ∧ irq s c = true
  · rw [handler3, if_pos hstop]
    exact modChan_sparesOthers c s _
  · rw [handler3_eq hstop]
    refine attachedStep_sparesOthers ?_ _ _ c _ s
    exact fun _ => rfl

/-- The branches are R169's: states 1, 5, 2 and 3, then the defect. -/
theorem advanceChannel_sparesOthers (c : ChanIdx) (s : State) : SparesOthers c s (advanceChannel c s) := by
  unfold advanceChannel
  split
  · exact modChan_sparesOthers c (raiseIrq c s) _
  split
  · exact modChan_sparesOthers c s _
  split
  · rw [handler2_eq]
    refine attachedStep_sparesOthers ?_ _ _ c _ s
    exact fun _ => rfl
  split
  · exact handler3_sparesOthers c s
  · exact sparesOthers_of_eq fun _ hd => modChan_chan_of_ne s (fun k => { k with state := 0 }) hd

/-- Settles O35, handler by handler. -/
theorem handlerLeavesOtherChannels : Obligations.HandlerLeavesOtherChannels :=
  fun c d s hd => advanceChannel_sparesOthers c s d hd

/-! ## The dispatch of an iteration -/

theorem due_iff {c : ChanIdx} {s : State} :
    (s.chan c).active = true ∧ (s.chan c).evtime = 0 ↔ ¬ChannelSettled (s.chan c) := by
  rw [active_iff, ChannelSettled, not_or, not_not]

theorem dispatchChannel_of_settled {c : ChanIdx} {s : State} (h : ChannelSettled (s.chan c)) : dispatchChannel c s = s :=
  if_neg fun hdue => due_iff.mp hdue h

/-- The dispatch with the statements' wording of R201's condition. -/
theorem dispatchChannel_eq (c : ChanIdx) (s : State) :
    dispatchChannel c s = if (s.chan c).state ≠ 0 ∧ (s.chan c).evtime = 0 then advanceChannel c s else s := by
  simp only [dispatchChannel, active_iff]

/-- With no event due an iteration dispatches nothing. -/
theorem dispatch_of_no_event {s : State} (h : 0 < untilEvent s) : dispatchAll (dispatchSample s) = s := by
  obtain ⟨hnext, hsettled⟩ := untilEvent_pos_iff.mp h
  rw [dispatchSample, if_neg hnext, dispatchAll, dispatchChannel_of_settled (hsettled 0),
    dispatchChannel_of_settled (hsettled 1), dispatchChannel_of_settled (hsettled 2),
    dispatchChannel_of_settled (hsettled 3)]

/-- What an iteration dispatches touches neither the budget nor the intervals. -/
theorem iteration_keeps (s : State) :
    (iteration s).pendingCycles = (elapse (best s) s).pendingCycles ∧ (iteration s).maxhpos = s.maxhpos ∧
      (iteration s).sampleEvtime = s.sampleEvtime := by
  obtain ⟨_, _, _, hall⟩ := dispatchAll_frame (dispatchSample (elapse (best s) s))
  obtain ⟨_, _, _, _, _, hsample⟩ := dispatchSample_frame (elapse (best s) s)
  rw [iteration, hall, hsample]
  exact ⟨rfl, rfl, rfl⟩

/-- An iteration consumes the cycles it moves (R201). -/
theorem iteration_pendingCycles_toNat (s : State) :
    (iteration s).pendingCycles.toNat = s.pendingCycles.toNat - best s := by
  obtain ⟨hpending, -, -⟩ := iteration_keeps s
  rw [hpending, elapse_pendingCycles_toNat]

/-- The channel events leave what the sample event made of the countdown and the output stage (R204). -/
theorem iteration_output (s : State) :
    (iteration s).nextSampleEvtime = (dispatchSample (elapse (best s) s)).nextSampleEvtime ∧
      (iteration s).filterL = (dispatchSample (elapse (best s) s)).filterL ∧
      (iteration s).filterR = (dispatchSample (elapse (best s) s)).filterR ∧
      (iteration s).pcm = (dispatchSample (elapse (best s) s)).pcm ∧
      (iteration s).out = (dispatchSample (elapse (best s) s)).out := by
  obtain ⟨_, _, _, hall⟩ := dispatchAll_frame (dispatchSample (elapse (best s) s))
  rw [iteration, hall]
  exact ⟨rfl, rfl, rfl, rfl, rfl⟩

/-- The sample countdown reloads at 0, and only there. -/
theorem iteration_nextSampleEvtime (s : State) :
    (iteration s).nextSampleEvtime =
      if (elapse (best s) s).nextSampleEvtime = 0 then s.sampleEvtime else (elapse (best s) s).nextSampleEvtime := by
  obtain ⟨hnext, -⟩ := iteration_output s
  rw [hnext, dispatchSample]
  split
  · exact sampleEvent_nextSampleEvtime _
  · rfl

/-! ## The cycles of a catch-up -/

/-- One iteration's part of R202: the cycles it consumes are the fall of the countdown, with an interval added where it
reloads. -/
theorem iteration_conserves (s : State) :
    (s.pendingCycles.toNat : Int) - (iteration s).pendingCycles.toNat =
      (if (elapse (best s) s).nextSampleEvtime = 0 then 1 else 0 : Nat) * s.sampleEvtime.toNat +
        s.nextSampleEvtime.toNat - (iteration s).nextSampleEvtime.toNat := by
  obtain ⟨hbudget, hnext, -⟩ := best_le s
  have hfall := elapse_nextSampleEvtime_toNat (best s) s
  rw [iteration_pendingCycles_toNat, iteration_nextSampleEvtime]
  split
  next h0 =>
    have hzero : (elapse (best s) s).nextSampleEvtime.toNat = 0 := congrArg BitVec.toNat h0
    omega
  next => omega

theorem drain_of_ended {n : Nat} {s : State} (h : s.pendingCycles = 0 ∨ stalled s = true) : drain n s = s := by
  cases n with
  | zero => rfl
  | succ n =>
    unfold drain
    split
    · rfl
    · exact if_pos (h.resolve_left ‹_›)

theorem drain_succ {n : Nat} {s : State} (hp : s.pendingCycles ≠ 0) (hst : stalled s = false) :
    drain (n + 1) s = drain n (iteration s) := by
  rw [drain, if_neg hp, if_neg (Bool.eq_false_iff.mp hst)]

theorem sampleEvents_of_ended {n : Nat} {s : State} (h : s.pendingCycles = 0 ∨ stalled s = true) :
    sampleEvents n s = 0 := by
  cases n with
  | zero => rfl
  | succ n =>
    unfold sampleEvents
    split
    · rfl
    · exact if_pos (h.resolve_left ‹_›)

theorem sampleEvents_succ {n : Nat} {s : State} (hp : s.pendingCycles ≠ 0) (hst : stalled s = false) :
    sampleEvents (n + 1) s =
      (if (elapse (best s) s).nextSampleEvtime = 0 then 1 else 0) + sampleEvents n (iteration s) := by
  rw [sampleEvents, if_neg hp, if_neg (Bool.eq_false_iff.mp hst)]

/-- The loop ends at once, or goes on with an iteration (R200). -/
theorem ended_or_runs (s : State) :
    (s.pendingCycles = 0 ∨ stalled s = true) ∨ (s.pendingCycles ≠ 0 ∧ stalled s = false) := by
  by_cases hp : s.pendingCycles = 0
  · exact .inl (.inl hp)
  · cases hst : stalled s
    · exact .inr ⟨hp, rfl⟩
    · exact .inl (.inr rfl)

/-- Settles O32, by induction on the iterations, each of which conserves cycles. -/
theorem catchUpConservesCycles : Obligations.CatchUpConservesCycles := by
  intro n
  induction n with
  | zero =>
    intro s
    simp [drain, sampleEvents]
  | succ n ih =>
    intro s
    rcases ended_or_runs s with hend | ⟨hp, hst⟩
    · rw [drain_of_ended hend, sampleEvents_of_ended hend]
      simp
    · obtain ⟨-, -, hinterval⟩ := iteration_keeps s
      have hfirst := iteration_conserves s
      have hrest := ih (iteration s)
      rw [hinterval] at hrest
      rw [drain_succ hp hst, sampleEvents_succ hp hst, Nat.cast_add, add_mul]
      omega

/-! ## The sample event of an iteration -/

theorem producing_iff {s : State} : producing s = true ↔ 2 ≤ s.cfg.produceSound.val := decide_eq_true_iff

/-- R203's output stage, part by part: each side is filtered on its own record, and the frame goes to the buffer. -/
theorem produceFrame_output (s : State) :
    let l := filterSample s.cfg s.led s.filterL (mixLeft (voices s))
    let r := filterSample s.cfg s.led s.filterR (mixRight (voices s))
    (produceFrame s).filterL = l.record ∧ (produceFrame s).filterR = r.record ∧
      (produceFrame s).pcm = (appendFrame l.out r.out s).pcm ∧ (produceFrame s).out = (appendFrame l.out r.out s).out := by
  intro l r
  obtain ⟨_, _, hframe⟩ := appendFrame_frame l.out r.out { s with filterL := l.record, filterR := r.record }
  obtain ⟨hpcm, hout⟩ :=
    appendFrame_of_agree (s := { s with filterL := l.record, filterR := r.record }) (t := s) rfl rfl rfl l.out r.out
  have hproduce : produceFrame s = appendFrame l.out r.out { s with filterL := l.record, filterR := r.record } := rfl
  refine ⟨?_, ?_, hproduce ▸ hpcm, hproduce ▸ hout⟩ <;> rw [hproduce, hframe]

/-- Without a frame to make, the sample event leaves the output stage alone (R203). -/
theorem dispatchSample_output_of_silent {s : State} (h : s.nextSampleEvtime ≠ 0 ∨ s.cfg.produceSound.val < 2) :
    (dispatchSample s).filterL = s.filterL ∧ (dispatchSample s).filterR = s.filterR ∧
      (dispatchSample s).pcm = s.pcm ∧ (dispatchSample s).out = s.out := by
  unfold dispatchSample
  split
  next h0 =>
    have hsilent : ¬producing s = true := fun hp =>
      absurd (producing_iff.mp hp) (Nat.not_le.mpr (h.resolve_left (not_not_intro h0)))
    rw [sampleEvent, if_neg hsilent]
    exact ⟨rfl, rfl, rfl, rfl⟩
  next => exact ⟨rfl, rfl, rfl, rfl⟩

/-- Settles O34: an iteration's output stage is its sample event's, made of the channels as the countdowns' fall left
them. -/
theorem sampleUsesPreTransitionState : Obligations.SampleUsesPreTransitionState := by
  intro s e t v l r
  obtain ⟨-, hfilterL, hfilterR, hpcm, hout⟩ := iteration_output s
  refine ⟨iteration_nextSampleEvtime s, ?_, ?_⟩
  · rintro ⟨h0, htier⟩
    have hproducing : producing e = true := producing_iff.mpr htier
    have hsample : dispatchSample e = produceFrame { e with nextSampleEvtime := e.sampleEvtime } := by
      rw [dispatchSample, if_pos h0, sampleEvent, if_pos hproducing]
    obtain ⟨hL, hR, hp, ho⟩ := produceFrame_output { e with nextSampleEvtime := e.sampleEvtime }
    obtain ⟨hp', ho'⟩ :=
      appendFrame_of_agree (s := { e with nextSampleEvtime := e.sampleEvtime }) (t := s) rfl rfl rfl l.out r.out
    rw [← hsample] at hL hR hp ho
    exact ⟨hfilterL.trans hL, hfilterR.trans hR, hpcm.trans (hp.trans hp'), hout.trans (ho.trans ho')⟩
  · intro hsilent
    obtain ⟨hL, hR, hp, ho⟩ := dispatchSample_output_of_silent (s := e) hsilent
    exact ⟨hfilterL.trans hL, hfilterR.trans hR, hpcm.trans hp, hout.trans ho⟩

/-! ## The channels over an iteration -/

/-- Every channel record is ready, with its mask in `m`, and the first `n` have no event due. -/
def SettledTo (m : ChanIdx → BitVec 32) (n : Nat) (s : State) : Prop :=
  ∀ c : ChanIdx, ChannelReady (m c) (s.chan c) ∧ (c.val < n → ChannelSettled (s.chan c))

theorem settledTo_iff {s : State} :
    SettledTo (fun c => (s.chan c).adkMask) 4 s ↔ ∀ c : ChanIdx, channelInv (s.chan c) := by
  refine forall_congr' fun c => ?_
  rw [imp_iff_right c.isLt, ← channelInv_iff]
  exact and_iff_left rfl

namespace SettledTo

variable {m : ChanIdx → BitVec 32} {n : Nat} {c : ChanIdx} {s t : State}

theorem channelInv (h : SettledTo m 4 s) (c : ChanIdx) : Machine.channelInv (s.chan c) := by
  obtain ⟨hready, hsettled⟩ := h c
  exact (channelInv_iff.mpr ⟨hready, hsettled c.isLt⟩).1

theorem elapse (h : SettledTo m n s) (k : Nat) : SettledTo m 0 (elapse k s) := by
  intro c
  obtain ⟨hready, -⟩ := h c
  rw [elapse_chan]
  refine ⟨?_, fun hc => absurd hc (Nat.not_lt_zero _)⟩
  unfold elapseChannel
  split
  · exact { hready with }
  · exact hready

theorem dispatchSample (h : SettledTo m n s) : SettledTo m n (dispatchSample s) := by
  obtain ⟨_, _, _, _, _, hframe⟩ := dispatchSample_frame s
  rw [hframe]
  exact h

/-- One channel's turn in the dispatch (R204): its event settles it and unsettles no other. -/
theorem dispatchChannel (h : SettledTo m c.val s) : SettledTo m (c.val + 1) (dispatchChannel c s) := by
  obtain ⟨hready, -⟩ := h c
  by_cases hs : ChannelSettled (s.chan c)
  · rw [dispatchChannel_of_settled hs]
    refine fun d => ⟨(h d).1, fun hlt => ?_⟩
    rcases Nat.lt_succ_iff_lt_or_eq.mp hlt with hlt | heq
    · exact (h d).2 hlt
    · exact Fin.ext heq ▸ hs
  · have hdue := due_iff.mpr hs
    obtain ⟨hon, hready', hsettled'⟩ := advanceChannel_ready hready (active_iff.mp hdue.1)
    rw [Machine.dispatchChannel, if_pos hdue]
    intro d
    by_cases hd : d = c
    · subst d
      exact ⟨hready', fun _ => hsettled'⟩
    · obtain ⟨hreadyd, hsettledd⟩ := h d
      have hretuned := hon.others d hd
      refine ⟨hretuned.ready hreadyd, fun hlt => hretuned.settled (hsettledd ?_)⟩
      exact (Nat.lt_succ_iff_lt_or_eq.mp hlt).resolve_right fun he => hd (Fin.ext he)

theorem dispatchAll (h : SettledTo m 0 s) : SettledTo m 4 (dispatchAll s) :=
  have h1 : SettledTo m 1 _ := dispatchChannel (c := 0) h
  have h2 : SettledTo m 2 _ := dispatchChannel (c := 1) h1
  have h3 : SettledTo m 3 _ := dispatchChannel (c := 2) h2
  dispatchChannel (c := 3) h3

end SettledTo

/-- An iteration keeps the channel invariant, whatever the masks (R205). -/
theorem iteration_channelInv {s : State} (h : ∀ c : ChanIdx, channelInv (s.chan c)) (c : ChanIdx) :
    channelInv ((iteration s).chan c) :=
  ((settledTo_iff.mpr h).elapse (best s)).dispatchSample.dispatchAll.channelInv c

theorem iteration_clockInv {s : State} (h : clockInv s) : clockInv (iteration s) := by
  obtain ⟨hmax, hinterval, -⟩ := h
  obtain ⟨-, hmax', hinterval'⟩ := iteration_keeps s
  obtain ⟨hnext', -⟩ := iteration_output s
  rw [clockInv, hmax', hinterval', hnext']
  exact ⟨hmax, hinterval, dispatchSample_nextSampleEvtime (s := elapse (best s) s) hinterval⟩

/-- Progress (R205): with cycles to run and no event overdue, an iteration moves at least one cycle. -/
theorem best_pos {s : State} (hp : s.pendingCycles ≠ 0) (hevent : 0 < untilEvent s) : 0 < best s := by
  rw [best_eq]
  exact lt_min (BitVec.toNat_pos_of_ne_zero hp) hevent

theorem settled_of_channelInv {k : Channel} (h : channelInv k) : ChannelSettled k :=
  (channelInv_iff.mp ⟨h, rfl⟩).2

/-- Settles O33: `best` is a minimum, the fall takes it from each countdown, and what follows is the dispatch, which keeps
the countdowns positive. -/
theorem iterationFollowsItsRule : Obligations.IterationFollowsItsRule := by
  intro s n e u event
  obtain ⟨hbudget, hnext, hchan⟩ := best_le s
  refine ⟨⟨hbudget, hnext, hchan, best_attained s⟩, ⟨?_, ?_, fun c hc => ?_, fun c hc => ?_, rfl⟩, ?_, ?_,
    fun hinv hclock hp => ?_⟩
  · rw [elapse_pendingCycles_toNat]
    exact Nat.sub_add_cancel hbudget
  · rw [elapse_nextSampleEvtime_toNat]
    exact Nat.sub_add_cancel hnext
  · rw [elapse_chan, elapseChannel_evtime_toNat hc, elapseChannel_of_active hc]
    exact ⟨Nat.sub_add_cancel (hchan c hc), rfl⟩
  · rw [elapse_chan, elapseChannel_of_idle hc]
  · obtain ⟨_, _, _, _, _, hframe⟩ := dispatchSample_frame e
    rw [show u = _ from hframe]
  · have hturn : event = dispatchChannel := funext fun c => funext fun t => (dispatchChannel_eq c t).symm
    rw [hturn]
    rfl
  · obtain ⟨hmax, hinterval, hcountdown⟩ := hclock
    have hevent : 0 < untilEvent s := untilEvent_pos_iff.mpr ⟨hcountdown, fun c => settled_of_channelInv (hinv c)⟩
    refine ⟨best_pos hp hevent, ?_, iteration_channelInv hinv,
      iteration_clockInv ⟨hmax, hinterval, hcountdown⟩⟩
    rw [iteration_pendingCycles_toNat]
    exact Nat.sub_add_cancel hbudget

/-! ## The end of a catch-up -/

theorem BlockInv.untilEvent_pos {s : State} (h : BlockInv s) : 0 < untilEvent s :=
  untilEvent_pos_iff.mpr ⟨h.nextSampleEvtime, fun c => h.chans.settled c c.isLt⟩

/-- Each iteration consumes a cycle, so fewer are left than before (R205). -/
theorem BlockInv.iteration_pendingCycles_lt {s : State} (h : BlockInv s) (hp : s.pendingCycles ≠ 0) :
    (Machine.iteration s).pendingCycles.toNat < s.pendingCycles.toNat := by
  rw [iteration_pendingCycles_toNat]
  exact Nat.sub_lt (BitVec.toNat_pos_of_ne_zero hp) (best_pos hp h.untilEvent_pos)

theorem pendingCycles_eq_zero {s : State} (h : s.pendingCycles.toNat ≤ 0) : s.pendingCycles = 0 :=
  BitVec.eq_of_toNat_eq (Nat.le_zero.mp h)

/-- With as many iterations as cycles the loop ends as R200 ends it, not for want of iterations (R205). -/
theorem BlockInv.drain_ends {s : State} (h : BlockInv s) {n : Nat} (hn : s.pendingCycles.toNat ≤ n) :
    (Machine.drain n s).pendingCycles = 0 ∨ stalled (Machine.drain n s) = true := by
  induction n generalizing s with
  | zero => exact .inl (pendingCycles_eq_zero hn)
  | succ n ih =>
    rcases ended_or_runs s with hend | ⟨hp, hst⟩
    · rwa [drain_of_ended hend]
    · have hless := h.iteration_pendingCycles_lt hp
      rw [drain_succ hp hst]
      exact ih (h.iteration hst) (by omega)

/-- More iterations than cycles make no difference (R205). -/
theorem BlockInv.drain_of_enough {s : State} (h : BlockInv s) {a b : Nat} (ha : s.pendingCycles.toNat ≤ a)
    (hb : s.pendingCycles.toNat ≤ b) : Machine.drain a s = Machine.drain b s := by
  induction a generalizing s b with
  | zero =>
    have hend : s.pendingCycles = 0 ∨ stalled s = true := .inl (pendingCycles_eq_zero ha)
    rw [drain_of_ended hend, drain_of_ended hend]
  | succ a ih =>
    rcases ended_or_runs s with hend | ⟨hp, hst⟩
    · rw [drain_of_ended hend, drain_of_ended hend]
    · have hless := h.iteration_pendingCycles_lt hp
      obtain ⟨b, rfl⟩ : ∃ b', b = b' + 1 := ⟨b - 1, by omega⟩
      rw [drain_succ hp hst, drain_succ hp hst]
      exact ih (h.iteration hst) (by omega) (by omega)

theorem BlockInv.arm {s : State} (h : BlockInv s) (cmd : Instr) : BlockInv (arm cmd s) :=
  { h with chans := { h.chans with } }

/-! ## No step stops -/

/-- Under the invariant the scheduler progresses, so a catch-up never stops the machine (R205). -/
theorem BlockInv.settle_isNext {s : State} (h : BlockInv s) : ∃ t : State, settle s = .next t := by
  unfold settle settleDrained
  split
  next => exact ⟨_, rfl⟩
  next hp =>
    have hst := (h.drain_ends (Nat.le_succ _)).resolve_left hp
    exact ⟨_, if_pos hst⟩

theorem registerCommand_isNext {s : State} (h : BlockInv s) (cmd : Instr) (ok : Bool) :
    ∃ t : State, registerCommand cmd ok s = .next t := by
  unfold registerCommand
  split
  · exact ⟨_, rfl⟩
  split
  · exact ⟨_, rfl⟩
  split
  · exact ⟨_, rfl⟩
  split
  · exact ⟨_, rfl⟩
  · exact (h.arm cmd).settle_isNext

theorem execRead_isNext {s : State} (h : BlockInv s) (n : Word) : ∃ t : State, execRead n s = .next t := by
  unfold execRead
  split
  · exact ⟨_, rfl⟩
  split
  · exact ⟨_, rfl⟩
  next hw =>
    split
    · exact ⟨_, rfl⟩
    next hn =>
      unfold resume
      split
      · exact (h.acceptRead (by simpa using hw) hn).settle_isNext
      · exact ⟨_, rfl⟩

theorem exec_isNext {s : State} (h : BlockInv s) (i : Instr) : ∃ t : State, exec i s = .next t := by
  cases hport : i.port with
  | register =>
    rw [exec_of_register hport]
    exact registerCommand_isNext h i _
  | control =>
    cases i with
    | read n => exact execRead_isNext h n
    | reset => rcases execReset_next s with ⟨_, -, he⟩ | ⟨-, he⟩ <;> exact ⟨_, he⟩
    | _ => cases hport

/-- Settles O60: a fetch leaves the invariant, under which no command stops. -/
theorem stepNeverStops : Obligations.StepNeverStops := by
  intro s h
  obtain ⟨-, hcommand⟩ := fetch_inv h
  unfold step
  split
  next => exact ⟨_, rfl⟩
  next => exact ⟨_, rfl⟩
  next p w t hf =>
    obtain ⟨hb, -⟩ := inv_iff.mp (hcommand p w t hf)
    unfold runWord
    split
    · exact exec_isNext hb _
    · exact ⟨_, rfl⟩

/-! ## A catch-up in two parts -/

/-- The catch-up of `s` prolonged by `q` cycles, up to the time `t` of command `cmd`: `arm` over a state with cycles still
to run. -/
def State.prolonged (q t : BitVec 64) (cmd : Instr) (s : State) : State :=
  { s with pendingCycles := s.pendingCycles + q, lastCycles := t, now := t, held := some cmd }

section

variable {q t : BitVec 64} {cmd : Instr} {s : State}

theorem BlockInv.prolonged (h : BlockInv s) : BlockInv (s.prolonged q t cmd) :=
  { h with chans := { h.chans with } }

theorem prolonged_pendingCycles_toNat (hq : s.pendingCycles.toNat + q.toNat < 2 ^ 64) :
    (s.prolonged q t cmd).pendingCycles.toNat = s.pendingCycles.toNat + q.toNat :=
  BitVec.toNat_add_of_lt hq

theorem raiseIrqIf_prolonged (b : Bool) (c : ChanIdx) :
    raiseIrqIf b c (s.prolonged q t cmd) = (raiseIrqIf b c s).prolonged q t cmd :=
  ite_commutes (fun _ => rfl) fun _ => rfl

theorem modNext_prolonged (c : ChanIdx) (f : Channel → Channel) :
    modNext c f (s.prolonged q t cmd) = (modNext c f s).prolonged q t cmd := by
  unfold modNext
  split <;> rfl

theorem attachedStep_prolonged (attach raise : Bool) (c : ChanIdx) (own next : Channel → Channel) :
    attachedStep attach raise c own next (s.prolonged q t cmd) =
      (attachedStep attach raise c own next s).prolonged q t cmd := by
  have hown : (raiseIrqIf raise c (s.prolonged q t cmd)).modChan c own =
      ((raiseIrqIf raise c s).modChan c own).prolonged q t cmd :=
    congrArg (State.modChan · c own) (raiseIrqIf_prolonged raise c)
  refine ite_commutes (fun _ => ?_) fun _ => hown
  rw [hown, modNext_prolonged]

theorem handler2_prolonged (c : ChanIdx) : handler2 c (s.prolonged q t cmd) = (handler2 c s).prolonged q t cmd := by
  rw [handler2_eq, handler2_eq, ← attachedStep_prolonged]
  rfl

theorem handler3_prolonged (c : ChanIdx) : handler3 c (s.prolonged q t cmd) = (handler3 c s).prolonged q t cmd := by
  by_cases hstop : (s.chan c).dmaen = false ∧ irq s c = true
  · have hstop' : ((s.prolonged q t cmd).chan c).dmaen = false ∧ irq (s.prolonged q t cmd) c = true := hstop
    rw [handler3, handler3, if_pos hstop, if_pos hstop']
    rfl
  · have hstop' : ¬(((s.prolonged q t cmd).chan c).dmaen = false ∧ irq (s.prolonged q t cmd) c = true) := hstop
    rw [handler3_eq hstop, handler3_eq hstop', ← attachedStep_prolonged]
    rfl

/-- No handler reads the budget, the clock or the held command. -/
theorem advanceChannel_prolonged (c : ChanIdx) :
    advanceChannel c (s.prolonged q t cmd) = (advanceChannel c s).prolonged q t cmd :=
  ite_commutes (fun _ => rfl) fun _ => ite_commutes (fun _ => rfl) fun _ =>
    ite_commutes (fun _ => handler2_prolonged c) fun _ => ite_commutes (fun _ => handler3_prolonged c) fun _ => rfl

theorem dispatchChannel_prolonged (c : ChanIdx) :
    dispatchChannel c (s.prolonged q t cmd) = (dispatchChannel c s).prolonged q t cmd :=
  ite_commutes (fun _ => advanceChannel_prolonged c) fun _ => rfl

theorem dispatchAll_prolonged : dispatchAll (s.prolonged q t cmd) = (dispatchAll s).prolonged q t cmd := by
  simp only [dispatchAll, dispatchChannel_prolonged]

theorem flushCheck_prolonged : flushCheck (s.prolonged q t cmd) = (flushCheck s).prolonged q t cmd :=
  ite_commutes (fun _ => rfl) fun _ => rfl

theorem produceFrame_prolonged : produceFrame (s.prolonged q t cmd) = (produceFrame s).prolonged q t cmd := by
  unfold produceFrame appendFrame
  rw [← flushCheck_prolonged]
  rfl

theorem dispatchSample_prolonged : dispatchSample (s.prolonged q t cmd) = (dispatchSample s).prolonged q t cmd :=
  ite_commutes (fun _ => ite_commutes
    (fun _ => produceFrame_prolonged (s := { s with nextSampleEvtime := s.sampleEvtime })) fun _ => rfl) fun _ => rfl

theorem best_prolonged (hq : s.pendingCycles.toNat + q.toNat < 2 ^ 64) :
    best (s.prolonged q t cmd) = min (s.pendingCycles.toNat + q.toNat) (untilEvent s) := by
  rw [best_eq, prolonged_pendingCycles_toNat hq]
  rfl

/-- A fall inside the first budget is the same fall with the longer one. -/
theorem elapse_prolonged (hq : s.pendingCycles.toNat + q.toNat < 2 ^ 64) {n : Nat} (hn : n ≤ s.pendingCycles.toNat) :
    elapse n (s.prolonged q t cmd) = (elapse n s).prolonged q t cmd := by
  have hbudget : (elapse n (s.prolonged q t cmd)).pendingCycles = (elapse n s).pendingCycles + q := by
    refine BitVec.eq_of_toNat_eq ?_
    have hfall := elapse_pendingCycles_toNat n s
    rw [elapse_pendingCycles_toNat, prolonged_pendingCycles_toNat hq, BitVec.toNat_add_of_lt (by omega), hfall]
    omega
  exact congrArg (fun p => { elapse n s with pendingCycles := p, lastCycles := t, now := t, held := some cmd }) hbudget

/-- Two falls of the countdowns in a row are one. -/
theorem elapse_elapse (m n : Nat) (s : State) : elapse n (elapse m s) = elapse (m + n) s := by
  have hbudget : (elapse n (elapse m s)).pendingCycles = (elapse (m + n) s).pendingCycles :=
    BitVec.eq_of_toNat_eq (by simp only [elapse_pendingCycles_toNat, Nat.sub_sub])
  have hnext : (elapse n (elapse m s)).nextSampleEvtime = (elapse (m + n) s).nextSampleEvtime :=
    BitVec.eq_of_toNat_eq (by simp only [elapse_nextSampleEvtime_toNat, Nat.sub_sub])
  have hch : (elapse n (elapse m s)).ch = (elapse (m + n) s).ch :=
    Quad.ext_get fun c => by simp only [elapse_ch, Quad.get_map, elapseChannel_elapseChannel]
  calc elapse n (elapse m s)
    _ = { s with
          pendingCycles := (elapse n (elapse m s)).pendingCycles
          nextSampleEvtime := (elapse n (elapse m s)).nextSampleEvtime
          ch := (elapse n (elapse m s)).ch } := rfl
    _ = elapse (m + n) s := by
      rw [hbudget, hnext, hch]
      rfl

/-- Where the first budget does not end before the next event, an iteration is the same with the longer one. -/
theorem iteration_prolonged (hq : s.pendingCycles.toNat + q.toNat < 2 ^ 64)
    (hbest : best (s.prolonged q t cmd) = best s) :
    iteration (s.prolonged q t cmd) = (iteration s).prolonged q t cmd := by
  obtain ⟨hbudget, -⟩ := best_le s
  rw [iteration, hbest, elapse_prolonged hq hbudget, dispatchSample_prolonged, dispatchAll_prolonged, iteration]

/-- Where the first budget ends before the next event, its last iteration only moves the countdowns. -/
theorem iteration_before_event (h : s.pendingCycles.toNat < untilEvent s) :
    iteration s = elapse s.pendingCycles.toNat s := by
  have hevent : 0 < untilEvent (elapse s.pendingCycles.toNat s) := by
    rw [untilEvent_elapse]
    exact Nat.sub_pos_of_lt h
  rw [iteration, best_eq, min_eq_left h.le, dispatch_of_no_event hevent]

/-- There the longer budget's one iteration ends where a first part to the end of the short budget and a second from there
on end. -/
theorem iteration_prolonged_elapse (hq : s.pendingCycles.toNat + q.toNat < 2 ^ 64)
    (h : s.pendingCycles.toNat < untilEvent s) :
    iteration ((elapse s.pendingCycles.toNat s).prolonged q t cmd) = iteration (s.prolonged q t cmd) := by
  have hempty : (elapse s.pendingCycles.toNat s).pendingCycles.toNat = 0 := by
    rw [elapse_pendingCycles_toNat, Nat.sub_self]
  have hbest : s.pendingCycles.toNat + best ((elapse s.pendingCycles.toNat s).prolonged q t cmd) =
      best (s.prolonged q t cmd) := by
    rw [best_prolonged hq, best_prolonged (by omega), hempty, untilEvent_elapse]
    omega
  rw [iteration, iteration, ← hbest, ← elapse_elapse, elapse_prolonged hq (le_refl _)]

theorem prolonged_pendingCycles_ne_zero (hq : s.pendingCycles.toNat + q.toNat < 2 ^ 64)
    (h : 0 < s.pendingCycles.toNat + q.toNat) : (s.prolonged q t cmd).pendingCycles ≠ 0 := fun h0 => by
  rw [← prolonged_pendingCycles_toNat (t := t) (cmd := cmd) hq, h0] at h
  exact Nat.lt_irrefl 0 h

/-- The two loops meet after one iteration each, which the first part's end before the next event only divides. -/
theorem BlockInv.drain_prolonged_before_event (h : BlockInv s) (hst : stalled s = false)
    (hq : s.pendingCycles.toNat + q.toNat < 2 ^ 64) (hpos : 0 < q.toNat) (hevent : s.pendingCycles.toNat < untilEvent s)
    {a b : Nat} (ha : s.pendingCycles.toNat + q.toNat ≤ a) (hb : q.toNat ≤ b) :
    Machine.drain a (s.prolonged q t cmd) = Machine.drain b ((Machine.iteration s).prolonged q t cmd) := by
  have hiter := iteration_before_event hevent
  have hempty : (elapse s.pendingCycles.toNat s).pendingCycles.toNat = 0 := by
    rw [elapse_pendingCycles_toNat, Nat.sub_self]
  have hblock : BlockInv (elapse s.pendingCycles.toNat s) := hiter ▸ h.iteration hst
  have hwhole : (s.prolonged q t cmd).pendingCycles ≠ 0 := prolonged_pendingCycles_ne_zero hq (by omega)
  have hrest : ((elapse s.pendingCycles.toNat s).prolonged q t cmd).pendingCycles ≠ 0 :=
    prolonged_pendingCycles_ne_zero (by omega) (by omega)
  have hwholeless := (h.prolonged (q := q) (t := t) (cmd := cmd)).iteration_pendingCycles_lt hwhole
  have hrestless := (hblock.prolonged (q := q) (t := t) (cmd := cmd)).iteration_pendingCycles_lt hrest
  rw [prolonged_pendingCycles_toNat hq] at hwholeless
  rw [iteration_prolonged_elapse hq hevent, prolonged_pendingCycles_toNat (by omega)] at hrestless
  obtain ⟨a, rfl⟩ : ∃ a', a = a' + 1 := ⟨a - 1, by omega⟩
  obtain ⟨b, rfl⟩ : ∃ b', b = b' + 1 := ⟨b - 1, by omega⟩
  rw [hiter, drain_succ hwhole hst, drain_succ hrest hst, iteration_prolonged_elapse hq hevent]
  exact (h.prolonged.iteration hst).drain_of_enough (by omega) (by omega)

/-- From an empty budget on the prolonged catch-up is the second part alone. -/
theorem BlockInv.drain_prolonged_of_empty (h : BlockInv s) (hp : s.pendingCycles = 0) {a b : Nat} (ha : q.toNat ≤ a)
    (hb : q.toNat ≤ b) : Machine.drain a (s.prolonged q t cmd) = Machine.drain b (s.prolonged q t cmd) := by
  have hbudget : (s.prolonged q t cmd).pendingCycles = q := (congrArg (· + q) hp).trans (BitVec.zero_add q)
  exact h.prolonged.drain_of_enough (hbudget.symm ▸ ha) (hbudget.symm ▸ hb)

/-- A catch-up in two parts (R215): where the first runs to its end, prolonging it there answers what the whole answers. -/
theorem BlockInv.drain_prolonged (h : BlockInv s) (hq : s.pendingCycles.toNat + q.toNat < 2 ^ 64) {n a b : Nat}
    (hend : (Machine.drain n s).pendingCycles = 0) (ha : s.pendingCycles.toNat + q.toNat ≤ a) (hb : q.toNat ≤ b) :
    Machine.drain a (s.prolonged q t cmd) = Machine.drain b ((Machine.drain n s).prolonged q t cmd) := by
  induction n generalizing s a with
  | zero => exact h.drain_prolonged_of_empty hend (by omega) hb
  | succ n ih =>
    rcases ended_or_runs s with hended | ⟨hp, hst⟩
    · rw [drain_of_ended hended] at hend ⊢
      exact h.drain_prolonged_of_empty hend (by omega) hb
    · have hpos := BitVec.toNat_pos_of_ne_zero hp
      have hless := h.iteration_pendingCycles_lt hp
      rw [drain_succ hp hst] at hend ⊢
      by_cases hbest : best (s.prolonged q t cmd) = best s
      · obtain ⟨a, rfl⟩ : ∃ a', a = a' + 1 := ⟨a - 1, by omega⟩
        have hwhole : (s.prolonged q t cmd).pendingCycles ≠ 0 := prolonged_pendingCycles_ne_zero hq (by omega)
        rw [drain_succ hwhole hst, iteration_prolonged hq hbest]
        exact ih (h.iteration hst) (by omega) hend (by omega)
      · rw [best_prolonged hq, best_eq] at hbest
        have hevent : s.pendingCycles.toNat < untilEvent s := by omega
        have hempty : (Machine.iteration s).pendingCycles = 0 := by
          rw [iteration_before_event hevent]
          exact pendingCycles_eq_zero (elapse_pendingCycles_toNat .. ▸ (Nat.sub_self _).le)
        rw [drain_of_ended (.inl hempty)]
        exact h.drain_prolonged_before_event hst hq (by omega) hevent ha hb

theorem BlockInv.settle_prolonged (h : BlockInv s) (hq : s.pendingCycles.toNat + q.toNat < 2 ^ 64)
    (hend : (Machine.drain (drainBound s) s).pendingCycles = 0) :
    settle (s.prolonged q t cmd) = settle ((Machine.drain (drainBound s) s).prolonged q t cmd) := by
  have hwhole := prolonged_pendingCycles_toNat (t := t) (cmd := cmd) hq
  have hrest : ((Machine.drain (drainBound s) s).prolonged q t cmd).pendingCycles = q :=
    (congrArg (· + q) hend).trans (BitVec.zero_add q)
  refine congrArg settleDrained (h.drain_prolonged hq hend ?_ ?_)
  · exact hwhole ▸ Nat.le_succ _
  · exact (congrArg BitVec.toNat hrest).ge.trans (Nat.le_succ _)

end

/-! ## A command that the port takes -/

/-- Past the checks a register-port command is its catch-up and effect (R301, R120). -/
theorem exec_of_accepts {i : Instr} {s : State} (hport : i.port = .register) (hvalue : i.wellFormed = true)
    (h : accepts s) : exec i s = settle (arm i s) := by
  obtain ⟨hf, ha, hheld, htime⟩ := h
  rw [exec_of_register hport, hvalue]
  simp [registerCommand, deaf_eq_false hf ha, hheld, BitVec.not_lt.mpr htime]

/-- A SYNC that completes answers the end of its catch-up, with nothing held (R210). -/
theorem sync_completed {s u : State} (h : accepts s) (hexec : exec .sync s = .next u) (hu : u.held = none) :
    (drain (drainBound (arm .sync s)) (arm .sync s)).pendingCycles = 0 ∧
      u = { drain (drainBound (arm .sync s)) (arm .sync s) with held := none } := by
  rw [exec_of_accepts rfl rfl h] at hexec
  rcases settle_next hexec with ⟨hp, -⟩ | ⟨-, -, rfl⟩
  · rw [settle_completed rfl hp] at hexec
    cases hexec
    exact ⟨hp, rfl⟩
  · rw [drain_arm_held] at hu
    cases hu

/-- The cycles of a command's catch-up are those to an earlier time and those from there on. -/
theorem arm_eq_prolonged (cmd first : Instr) (t1 t2 : BitVec 64) (s : State) :
    arm cmd { s with now := t2 } = (arm first { s with now := t1 }).prolonged (t2 - t1) t2 cmd := by
  have hsplit : s.pendingCycles + (t2 - s.lastCycles) = s.pendingCycles + (t1 - s.lastCycles) + (t2 - t1) := by
    ring
  exact congrArg (fun p => { s with pendingCycles := p, lastCycles := t2, now := t2, held := some cmd }) hsplit

theorem arm_pendingCycles_toNat (cmd : Instr) {s : State} (hp : s.pendingCycles = 0) (htime : s.lastCycles ≤ s.now) :
    (arm cmd s).pendingCycles.toNat = s.now.toNat - s.lastCycles.toNat := by
  rw [arm_pendingCycles, hp, zero_add, BitVec.toNat_sub_of_le htime]

/-- A catch-up leaves the clock, and what decides whether the port takes a command, as the command set it. -/
theorem drain_arm_keeps (cmd : Instr) (n : Nat) (s : State) :
    (drain n (arm cmd s)).lastCycles = s.now ∧ (drain n (arm cmd s)).faulted = s.faulted ∧
      (drain n (arm cmd s)).awaitingReset = s.awaitingReset := by
  obtain ⟨_, _, _, _, _, _, _, _, _, hframe⟩ := drain_frame n (arm cmd s)
  rw [hframe]
  exact ⟨rfl, rfl, rfl⟩

/-- Settles O31: the command's catch-up from the start is SYNC's, prolonged, and from there on the second part. -/
theorem extraSyncChangesNothing : Obligations.ExtraSyncChangesNothing := by
  intro i s u t1 t2 hport hwf hinv hacc ht hexec hu
  obtain ⟨hblock, hidle, -⟩ := inv_iff.mp hinv
  obtain ⟨hend, rfl⟩ := sync_completed hacc hexec hu
  obtain ⟨hclock, hf', ha'⟩ :=
    drain_arm_keeps .sync (drainBound (arm .sync { s with now := t1 })) { s with now := t1 }
  obtain ⟨hf, ha, hheld, htime⟩ := hacc
  have hfirst : BlockInv (arm .sync { s with now := t1 }) := { hblock with chans := { hblock.chans with } }
  have hbudget : (arm .sync { s with now := t1 }).pendingCycles.toNat + (t2 - t1).toNat < 2 ^ 64 := by
    have hend2 := t2.isLt
    have htime : s.lastCycles.toNat ≤ t1.toNat := htime
    have ht : t1.toNat ≤ t2.toNat := ht
    rw [arm_pendingCycles_toNat .sync (s := { s with now := t1 }) (hidle hheld) htime, BitVec.toNat_sub_of_le ht]
    dsimp only
    omega
  have hwhole : accepts { s with now := t2 } := ⟨hf, ha, hheld, BitVec.le_trans htime ht⟩
  rw [exec_of_accepts hport hwf hwhole, arm_eq_prolonged i .sync t1 t2 s, hfirst.settle_prolonged hbudget hend]
  generalize drain (drainBound (arm .sync { s with now := t1 })) (arm .sync { s with now := t1 }) = d at *
  obtain rfl : d.lastCycles = t1 := hclock
  exact exec_of_accepts hport hwf ⟨hf'.trans hf, ha'.trans ha, rfl, ht⟩

/-! ## The timing commands -/

/-- Settles O10: the time check is the last before the catch-up (R301). -/
theorem earlierNowIsTimeReversal : Obligations.EarlierNowIsTimeReversal := by
  intro i s hport hvalue hf ha hheld htime
  rw [exec_of_register hport, hvalue]
  simp [registerCommand, deaf_eq_false hf ha, hheld, htime, takeFault]

/-- Settles O28: the catch-up's budget is empty, so its loop ends at once. -/
theorem noTimePassedRunsNoIteration : Obligations.NoTimePassedRunsNoIteration := by
  intro cmd s hnow hp hheld
  have hbudget : (arm cmd s).pendingCycles = 0 := by
    rw [arm_pendingCycles, hp, hnow, BitVec.sub_self]
    rfl
  rw [caughtUp, drain_of_ended (.inl hbudget)]
  calc { arm cmd s with held := none }
    _ = { s with
          pendingCycles := (arm cmd s).pendingCycles, lastCycles := (arm cmd s).lastCycles, held := none } := rfl
    _ = s := by rw [hbudget, show (arm cmd s).lastCycles = s.lastCycles from hnow, ← hp, ← hheld]

/-- Settles O26: the effect is the four services in index order. -/
theorem lineSyncServicesEveryChannel : Obligations.LineSyncServicesEveryChannel :=
  ⟨rfl, completesAs_of_effect rfl rfl rfl⟩

/-- Settles O25: the words are R92's layouts, and each effect is one field's update or none. -/
theorem timingCommandsSetTheirField : Obligations.TimingCommandsSetTheirField := by
  refine ⟨⟨rfl, completesAs_of_effect rfl rfl rfl⟩, fun led => ⟨?_, completesAs_of_effect rfl rfl rfl⟩,
    fun value hvalue => ⟨?_, completesAs_of_effect rfl (bne_iff_ne.mpr hvalue) rfl⟩,
    fun value hvalue => ⟨rfl, completesAs_of_effect rfl (bne_iff_ne.mpr hvalue) rfl⟩⟩
  · cases led <;> rfl
  · rfl

end Sys2Proof.Machine
end

section
/-! SUPPORT. The integer interpolators and the mix (spec/43_interpolators.md R230 to R234, R238 to R240): each strategy's
value at the ends of its blend, and the range that a blend, the mask and the stereo sums stay in. -/

namespace Sys2Proof.Machine

/-! ## The mask -/

/-- The mask of all ones keeps every value of 32 bits (R230). -/
theorem masked_ones_of_range {x : Int} (hlo : -(2 ^ 31) ≤ x) (hhi : x < 2 ^ 31) : masked 0xFFFFFFFF x = x := by
  rw [masked_ones]
  exact BitVec.toInt_ofInt_eq_self (by decide) hlo hhi

/-! ## The blends as the rules write them -/

/-- LINEAR's floor of the division by 256 is R233's `>> 8`. -/
theorem linear_eq_shiftRight (k : Channel) :
    linear k = (prevVol k * (256 - linearPos k) + curVol k * linearPos k) >>> (8 : Nat) :=
  (Int.shiftRight_eq_div_pow _ 8).symm

/-- CRUX's floor of the division by 4096 is R234's `>> 12`. -/
theorem crux_eq_shiftRight (k : Channel) (sev : Nat) :
    crux k sev = (curVol k * cruxRatio k sev + prevVol k * (4096 - cruxRatio k sev)) >>> (12 : Nat) :=
  (Int.shiftRight_eq_div_pow _ 12).symm

/-- The ratio of R234 with `r1` and `I` written out, over the integers. -/
theorem cruxRatio_eq (k : Channel) (sev : Nat) :
    cruxRatio k sev =
      if (k.evtime.toNat : Int) < sev ∨ 3 * (sev : Int) ≤ k.per.toNat - k.evtime.toNat then 4096
      else if (k.per.toNat : Int) - k.evtime.toNat ≤ 0 then 0
      else Int.tdiv (((k.per.toNat : Int) - k.evtime.toNat) * 4096) (3 * sev) := by
  simp only [cruxRatio, Nat.cast_mul, Nat.cast_ofNat, Nat.cast_lt]

/-! ## The ends of each blend -/

section

variable {k : Channel} {sev : Nat}

theorem linear_of_linearPos_zero (h : linearPos k = 0) : linear k = prevVol k := by
  simp [linear, h]

theorem linearPos_of_mod_zero (h : k.evtime.toNat % k.per.toNat = 0) : linearPos k = 0 := by
  simp [linearPos, h]

theorem crux_of_ratio_zero (h : cruxRatio k sev = 0) : crux k sev = prevVol k := by
  simp [crux, h]

theorem crux_of_ratio_full (h : cruxRatio k sev = 4096) : crux k sev = curVol k := by
  simp [crux, h]

/-- Less than one sample interval before the channel's event CRUX is all current sample (R234). -/
theorem cruxRatio_of_lt (h : k.evtime.toNat < sev) : cruxRatio k sev = 4096 := if_pos (.inl h)

/-- Just after a transition that is not also just before one, CRUX is all previous sample (R234). -/
theorem cruxRatio_of_transition (hsev : 1 ≤ sev) (hev : k.evtime.toNat = k.per.toNat) (hle : sev ≤ k.per.toNat) :
    cruxRatio k sev = 0 := by
  rw [cruxRatio_eq, if_neg (by omega), if_pos (by omega)]

theorem anti_of_span_full (hsev : 1 ≤ sev) (h : antiSpan k sev = sev) : anti k sev = prevVol k := by
  have hne : (sev : Int) ≠ 0 := by omega
  simp [anti, h, Int.mul_tdiv_cancel _ hne]

theorem anti_of_span_zero (hsev : 1 ≤ sev) (h : antiSpan k sev = 0) : anti k sev = curVol k := by
  have hne : (sev : Int) ≠ 0 := by omega
  simp [anti, h, Int.mul_tdiv_cancel _ hne]

/-- At the channel's event, with a period shorter than the sample interval, ANTI weighs the current sample by the period
(R238). -/
theorem anti_of_event_of_short (hev : k.evtime.toNat = 0) (hlt : k.per.toNat < sev) :
    anti k sev = Int.tdiv (prevVol k * (sev - k.per.toNat) + curVol k * k.per.toNat) sev := by
  have hspan : antiSpan k sev = sev - k.per.toNat := by
    unfold antiSpan
    omega
  rw [anti, hspan, sub_sub_cancel]

end

/-- Settles O44: the blends are the model's own, with `>>` as the floor of a division; at the positions of R240 the weight
is at one end of its range. -/
theorem integerStrategiesFollowTheirRules : Obligations.IntegerStrategiesFollowTheirRules := by
  refine ⟨fun x => ⟨masked_zero x, masked_ones_of_range⟩, ?_⟩
  intro k sev _ hsev cur prev ev per x ratio a
  have hratio : cruxRatio k sev = ratio := cruxRatio_eq k sev
  have hspan : antiSpan k sev = a := rfl
  refine ⟨⟨rfl, congrArg (masked k.adkMask) (linear_eq_shiftRight k), ?_, rfl⟩, fun hpos => ?_, fun hev hle => ?_,
    fun hev hlt => ?_, fun hev => ?_, fun hev => ?_, fun hev hle => ?_, fun hev hlt => ?_⟩
  · rw [← hratio]
    exact congrArg (masked k.adkMask) (crux_eq_shiftRight k sev)
  · exact congrArg (masked k.adkMask) (linear_of_linearPos_zero (linearPos_of_mod_zero hpos))
  · exact congrArg (masked k.adkMask) (crux_of_ratio_zero (cruxRatio_of_transition hsev (by omega) (by omega)))
  · exact congrArg (masked k.adkMask) (crux_of_ratio_full (cruxRatio_of_lt (by omega)))
  · exact congrArg (masked k.adkMask) (crux_of_ratio_full (cruxRatio_of_lt (by omega)))
  · exact congrArg (masked k.adkMask) (anti_of_span_full hsev (by omega))
  · exact congrArg (masked k.adkMask) (anti_of_span_zero hsev (by omega))
  · exact congrArg (masked k.adkMask) (anti_of_event_of_short (by omega) (by omega))

/-! ## The range of a voice -/

/-- A blend with weights between 0 and `w` stays within `w` times the bound of its ends. -/
theorem abs_blend_le {p c b a w : Int} (hp : |p| ≤ b) (hc : |c| ≤ b) (ha : 0 ≤ a) (haw : a ≤ w) :
    |p * a + c * (w - a)| ≤ b * w := by
  calc |p * a + c * (w - a)|
      ≤ |p| * a + |c| * (w - a) := by
        simpa [abs_mul, abs_of_nonneg ha, abs_of_nonneg (sub_nonneg.2 haw)] using abs_add_le (p * a) (c * (w - a))
    _ ≤ b * a + b * (w - a) :=
        add_le_add (mul_le_mul_of_nonneg_right hp ha) (mul_le_mul_of_nonneg_right hc (sub_nonneg.2 haw))
    _ = b * w := by ring

theorem abs_ediv_le {x b w : Int} (hw : 0 < w) (h : |x| ≤ b * w) : |x / w| ≤ b := by
  obtain ⟨hlo, hhi⟩ := abs_le.1 h
  exact abs_le.2 ⟨(Int.le_ediv_iff_mul_le hw).2 (by rwa [neg_mul]), Int.ediv_le_of_le_mul hw hhi⟩

/-- Truncated division keeps the bound for a divisor of 0 too, where it answers 0. -/
theorem abs_tdiv_le {x b w : Int} (hb : 0 ≤ b) (hw : 0 ≤ w) (h : |x| ≤ b * w) : |x.tdiv w| ≤ b := by
  lift b to Nat using hb
  lift w to Nat using hw
  rw [Int.abs_eq_natAbs] at h ⊢
  have hx : x.natAbs ≤ w * b := by
    rw [mul_comm]
    exact_mod_cast h
  rw [Int.natAbs_tdiv]
  exact_mod_cast Nat.div_le_of_le_mul hx

/-- A sample scaled by a volume of at most 63 (R232). -/
theorem abs_sext8_mul_le (b : Byte) {v : Nat} (hv : v ≤ 63) : |sext8 b * (v : Int)| ≤ 8064 := by
  obtain ⟨hlo, hhi⟩ := sext8_range b
  have hb : |sext8 b| ≤ 128 := abs_le.2 ⟨hlo, by omega⟩
  calc |sext8 b * (v : Int)| = |sext8 b| * v := by rw [abs_mul, Nat.abs_cast]
    _ ≤ 128 * 63 := mul_le_mul hb (by exact_mod_cast hv) (by omega) (by norm_num)

theorem per_toNat_pos {k : Channel} (hper : k.per ≠ 0) : 0 < k.per.toNat :=
  Nat.pos_of_ne_zero fun h => hper (BitVec.eq_of_toNat_eq h)

theorem linearPos_range {k : Channel} (hper : k.per ≠ 0) : 0 ≤ linearPos k ∧ linearPos k ≤ 256 := by
  have hmod : k.evtime.toNat % k.per.toNat ≤ k.per.toNat := (Nat.mod_lt _ (per_toNat_pos hper)).le
  exact ⟨Int.natCast_nonneg _, Int.ofNat_le.2 (Nat.div_le_of_le_mul (Nat.mul_le_mul_right 256 hmod))⟩

/-- The ratio of CRUX is one of its 12-bit scale in each of the three cases (R234). -/
theorem cruxRatio_range (k : Channel) (sev : Nat) : 0 ≤ cruxRatio k sev ∧ cruxRatio k sev ≤ 4096 := by
  rw [cruxRatio_eq]
  split_ifs with hfull hstart
  · omega
  · omega
  · rw [Int.tdiv_eq_ediv_of_nonneg (by omega)]
    exact ⟨Int.ediv_nonneg (by omega) (by omega), Int.ediv_le_of_le_mul (by omega) (by omega)⟩

theorem antiSpan_range (k : Channel) (sev : Nat) : 0 ≤ antiSpan k sev ∧ antiSpan k sev ≤ sev := by
  unfold antiSpan
  omega

/-- A masked value within 31 bits is the value or 0, so no mask of R45 takes it further from 0. -/
theorem abs_masked_le {a : BitVec 15} {c : ChanIdx} {x b : Int} (hx : |x| ≤ b) (hb : b < 2 ^ 31) :
    |masked (adkMaskOf a c) x| ≤ b := by
  rw [adkMaskOf_eq]
  split_ifs
  · rw [masked_zero, abs_zero]
    exact (abs_nonneg x).trans hx
  · obtain ⟨hlo, hhi⟩ := abs_le.1 hx
    rwa [masked_ones_of_range (by omega) (by omega)]

section

variable {k : Channel} (hvol : k.vol.toNat ≤ 63)

include hvol

theorem abs_curVol_le : |curVol k| ≤ 8064 := abs_sext8_mul_le k.currentSample hvol

theorem abs_prevVol_le : |prevVol k| ≤ 8064 := abs_sext8_mul_le k.lastSample0 hvol

theorem abs_linear_le (hper : k.per ≠ 0) : |linear k| ≤ 8064 := by
  obtain ⟨hlo, hhi⟩ := linearPos_range hper
  refine abs_ediv_le (by norm_num) ?_
  rw [add_comm]
  exact abs_blend_le (abs_curVol_le hvol) (abs_prevVol_le hvol) hlo hhi

theorem abs_crux_le (sev : Nat) : |crux k sev| ≤ 8064 := by
  obtain ⟨hlo, hhi⟩ := cruxRatio_range k sev
  exact abs_ediv_le (by norm_num) (abs_blend_le (abs_curVol_le hvol) (abs_prevVol_le hvol) hlo hhi)

theorem abs_anti_le (sev : Nat) : |anti k sev| ≤ 8064 := by
  obtain ⟨hlo, hhi⟩ := antiSpan_range k sev
  exact abs_tdiv_le (by norm_num) (by omega) (abs_blend_le (abs_prevVol_le hvol) (abs_curVol_le hvol) hlo hhi)

/-- The range of a voice under every strategy but CSPLINE (R232, R239). -/
theorem abs_interpolate_le {a : BitVec 15} {c : ChanIdx} (hper : k.per ≠ 0) (hmask : k.adkMask = adkMaskOf a c)
    {i : Interp} (hi : i ≠ .cspline) (sev : Nat) : |interpolate i sev k| ≤ 8064 := by
  unfold interpolate
  rw [hmask]
  cases i with
  | nearest => exact abs_masked_le (abs_curVol_le hvol) (by norm_num)
  | linear => exact abs_masked_le (abs_linear_le hvol hper) (by norm_num)
  | crux => exact abs_masked_le (abs_crux_le hvol sev) (by norm_num)
  | cspline => exact absurd rfl hi
  | anti => exact abs_masked_le (abs_anti_le hvol sev) (by norm_num)

end

/-- Settles O46: each side adds two voices, each within 8064 of 0. -/
theorem mixStaysInRange : Obligations.MixStaysInRange := by
  intro s hregs hmasks hi
  have hvoice (c : ChanIdx) : |(voices s).get c| ≤ 8064 := by
    obtain ⟨hper, hvol⟩ := hregs c
    rw [voices, Quad.get_map]
    exact abs_interpolate_le hvol hper (hmasks c) hi _
  have hleft : |mixLeft (voices s)| ≤ 8064 + 8064 := (abs_add_le _ _).trans (add_le_add (hvoice 0) (hvoice 3))
  have hright : |mixRight (voices s)| ≤ 8064 + 8064 := (abs_add_le _ _).trans (add_le_add (hvoice 1) (hvoice 2))
  obtain ⟨hleftLo, hleftHi⟩ := abs_le.1 hleft
  obtain ⟨hrightLo, hrightHi⟩ := abs_le.1 hright
  exact ⟨hleftLo, hleftHi, hrightLo, hrightHi⟩

end Sys2Proof.Machine
end

section
/-! SUPPORT. Floating-point values that are exact (spec/00_scope.md R11): what number a finite value stands for, that an
operation whose exact result is an integer of the format's precision gives that integer, how far a result can be from 0,
and truncation. The cubic at fractional position 0 (spec/43_interpolators.md R236, R240) is exact by them. -/

namespace Sys2Proof.Machine

/-- `a` is finite and stands for the number `v`. -/
def HasValue (a : Fp) (v : ℚ) : Prop := ∃ (neg : Bool) (m : Nat) (e : Int), a = .fin neg m e ∧ fpValue neg m e = v

/-! ## Truncation -/

/-- The model's division of naturals is the floor of the magnitude. -/
theorem scaled_div_eq_floor (m : Nat) (e : Int) : m * pow2 e / pow2 (-e) = ⌊(m : ℚ) * 2 ^ e⌋₊ := by
  have h := scaled_ratio m 1 e
  rw [one_mul, Nat.cast_one, div_one] at h
  rw [← h, Nat.floor_div_eq_div]

/-- Truncation toward zero (R11): the floor of a value that is not negative, the ceiling of one that is not positive. -/
theorem fpTrunc_spec (neg : Bool) (m : Nat) (e : Int) :
    (0 ≤ fpValue neg m e →
      (fpTrunc (.fin neg m e) : ℚ) ≤ fpValue neg m e ∧ fpValue neg m e < fpTrunc (.fin neg m e) + 1) ∧
    (fpValue neg m e ≤ 0 →
      fpValue neg m e ≤ fpTrunc (.fin neg m e) ∧ (fpTrunc (.fin neg m e) : ℚ) - 1 < fpValue neg m e) := by
  have hmag : (0 : ℚ) ≤ (m : ℚ) * 2 ^ e := by positivity
  have hle := Nat.floor_le hmag
  have hlt := Nat.lt_floor_add_one ((m : ℚ) * 2 ^ e)
  have hfloor : (0 : ℚ) ≤ (⌊(m : ℚ) * 2 ^ e⌋₊ : ℚ) := Nat.cast_nonneg _
  cases neg with
  | false =>
    simp only [fpTrunc, fpValue, scaled_div_eq_floor, Bool.false_eq_true, if_false, Int.cast_natCast]
    exact ⟨fun _ => ⟨hle, hlt⟩, fun _ => ⟨by linarith, by linarith⟩⟩
  | true =>
    simp only [fpTrunc, fpValue, scaled_div_eq_floor, if_true, Int.cast_neg, Int.cast_natCast]
    exact ⟨fun _ => ⟨by linarith, by linarith⟩, fun _ => ⟨by linarith, by linarith⟩⟩

/-- A value that is an integer truncates to it. -/
theorem HasValue.fpTrunc_eq {a : Fp} {n : Int} (h : HasValue a n) : fpTrunc a = n := by
  obtain ⟨neg, m, e, rfl, hv⟩ := h
  obtain ⟨hnonneg, hnonpos⟩ := fpTrunc_spec neg m e
  rw [hv] at hnonneg hnonpos
  rcases le_total 0 (n : ℚ) with hn | hn
  · obtain ⟨hle, hlt⟩ := hnonneg hn
    norm_cast at hle hlt
    omega
  · obtain ⟨hle, hlt⟩ := hnonpos hn
    norm_cast at hle
    have hlt' : fpTrunc (.fin neg m e) - 1 < n := by exact_mod_cast hlt
    omega

/-! ## Exact roundings -/

section

variable {f : FpFormat} {neg : Bool} {m : Nat} {e : Int} {x : ℚ} {r : Fp}

/-- Below the largest power of two of the format no rounding is infinite. -/
theorem finite_of_rounds (hx : x ≤ 2 ^ fpMaxExp f) (h : rounds f neg x r) : ∃ m e, r = .fin neg m e := by
  cases r with
  | nan => exact h.elim
  | inf s =>
    obtain ⟨-, hover⟩ := h
    rw [overflow_bound] at hover
    have hprec : (1 : ℚ) ≤ 2 ^ (fpPrecision f - 1) := one_le_pow₀ one_le_two
    have hmax : (0 : ℚ) < 2 ^ fpMaxExp f := zpow_pos two_pos _
    exact absurd (hover.trans hx) (not_le.2 (lt_mul_of_one_lt_left hmax (by linarith)))
  | fin s m e =>
    obtain ⟨rfl, -⟩ := h
    exact ⟨m, e, rfl⟩

/-- With a positive exponent a significand reaches past every integer of the format's precision. -/
theorem two_pow_fpPrecision_le_of_rounds (hm : m ≠ 0) (he : 0 < e) (h : rounds f neg x (.fin neg m e)) :
    (2 : ℚ) ^ fpPrecision f - 1 / 2 ≤ x := by
  obtain ⟨-, -, -, hsig⟩ := h
  obtain ⟨hnorm, hclose, -, hpow⟩ := hsig hm
  have hmin : e ≠ fpMinExp f := by
    have hneg : fpMinExp f < 0 := by cases f <;> decide
    omega
  have hunit : (2 : ℚ) ≤ 2 ^ e := by
    simpa using zpow_le_zpow_right₀ (one_le_two (α := ℚ)) (show 1 ≤ e by omega)
  have hprec : (2 : ℚ) ^ fpPrecision f = 2 * 2 ^ (fpPrecision f - 1) := by exact_mod_cast two_pow_fpPrecision f
  have hP : (1 : ℚ) ≤ 2 ^ (fpPrecision f - 1) := one_le_pow₀ one_le_two
  have hbelow : (2 ^ (fpPrecision f - 1) - 1 / 4) * (2 : ℚ) ^ e ≤ x := by
    rcases (hnorm.resolve_right hmin).eq_or_lt with hm | hm
    · have hquarter := (hpow hm.symm).resolve_left hmin
      rw [← hm] at hquarter
      push_cast at hquarter
      linarith
    · have hstep : (2 : ℚ) ^ (fpPrecision f - 1) + 1 ≤ m := by exact_mod_cast hm
      have hmul := mul_le_mul_of_nonneg_right hstep (zpow_pos (two_pos (α := ℚ)) e).le
      linarith [le_abs_self ((m : ℚ) * 2 ^ e - x)]
  calc (2 : ℚ) ^ fpPrecision f - 1 / 2 = (2 ^ (fpPrecision f - 1) - 1 / 4) * 2 := by rw [hprec]; ring
    _ ≤ (2 ^ (fpPrecision f - 1) - 1 / 4) * 2 ^ e := mul_le_mul_of_nonneg_left hunit (by linarith)
    _ ≤ x := hbelow

/-- An integer within half a unit of a value whose unit divides 1 is that value. -/
theorem eq_natCast_of_close {n : Nat} (he : e ≤ 0) (hclose : 2 * |(m : ℚ) * 2 ^ e - n| ≤ 2 ^ e) :
    (m : ℚ) * 2 ^ e = n := by
  have hpos : (0 : ℚ) < 2 ^ e := zpow_pos two_pos e
  have hn : (n : ℚ) = ((n * pow2 (-e) : Nat) : ℚ) * 2 ^ e := by
    rw [Nat.cast_mul, pow2_of_nonneg (by omega), mul_assoc, ← zpow_add₀ two_ne_zero, neg_add_cancel, zpow_zero,
      mul_one]
  rw [hn] at hclose ⊢
  generalize n * pow2 (-e) = k at hclose ⊢
  rw [← sub_mul, abs_mul, abs_of_pos hpos, ← mul_assoc, mul_le_iff_le_one_left hpos] at hclose
  have hint : 2 * |(m : Int) - k| ≤ 1 := by exact_mod_cast hclose
  have hzero : |(m : Int) - k| = 0 := by
    have := abs_nonneg ((m : Int) - k)
    omega
  have heq : (m : Int) = k := by simpa [sub_eq_zero] using hzero
  exact_mod_cast congrArg (fun i : Int => (i : ℚ) * 2 ^ e) heq

/-- The rounding of a natural number of the format's precision is that number. -/
theorem rounds_natCast {n : Nat} (hn : n < 2 ^ fpPrecision f) (h : rounds f neg n r) :
    ∃ m e, r = .fin neg m e ∧ (m : ℚ) * 2 ^ e = n := by
  have hnQ : (n : ℚ) + 1 ≤ 2 ^ fpPrecision f := by exact_mod_cast hn
  have hmax : (2 : ℚ) ^ fpPrecision f ≤ 2 ^ fpMaxExp f := by
    rw [← zpow_natCast]
    exact zpow_le_zpow_right₀ one_le_two (by cases f <;> decide)
  obtain ⟨m, e, rfl⟩ := finite_of_rounds (by linarith) h
  refine ⟨m, e, rfl, ?_⟩
  by_cases hm : m = 0
  · obtain ⟨-, -, hzero, -⟩ := h
    have hsmall : (2 : ℚ) ^ (fpMinExp f - 1) < 1 := zpow_lt_one_of_neg₀ one_lt_two (by cases f <;> decide)
    have hlt : (n : ℚ) < 1 := (hzero hm).trans_lt hsmall
    obtain rfl : n = 0 := Nat.lt_one_iff.1 (by exact_mod_cast hlt)
    simp [hm]
  · rcases le_or_gt e 0 with he | he
    · obtain ⟨-, -, -, hsig⟩ := h
      obtain ⟨-, hclose, -⟩ := hsig hm
      exact eq_natCast_of_close he hclose
    · linarith [two_pow_fpPrecision_le_of_rounds hm he h]

/-- A rounding at most doubles a magnitude: half a unit of its last place is no more than half of it. -/
theorem magnitude_of_rounds (hx0 : 0 ≤ x) (hx : x ≤ 2 ^ fpMaxExp f) (h : rounds f neg x r) :
    ∃ m e, r = .fin neg m e ∧ (m : ℚ) * 2 ^ e ≤ 2 * x := by
  obtain ⟨m, e, rfl⟩ := finite_of_rounds hx h
  refine ⟨m, e, rfl, ?_⟩
  by_cases hm : m = 0
  · simpa [hm] using hx0
  · obtain ⟨-, -, -, hsig⟩ := h
    obtain ⟨-, hclose, -⟩ := hsig hm
    have hone : (1 : ℚ) ≤ m := by exact_mod_cast Nat.one_le_iff_ne_zero.2 hm
    have hunit : (2 : ℚ) ^ e ≤ m * 2 ^ e := le_mul_of_one_le_left (zpow_pos two_pos e).le hone
    linarith [le_abs_self ((m : ℚ) * 2 ^ e - x)]

end

/-! ## The operations on values -/

/-- `r` is the rounding of the number `v`, with the sign that `v` has (either one where `v` is 0). -/
def RoundsTo (f : FpFormat) (v : ℚ) (r : Fp) : Prop :=
  ∃ neg : Bool, rounds f neg |v| r ∧ (if neg then -|v| else |v|) = v

section

variable {f : FpFormat} {a b r : Fp} {u v : ℚ}

theorem RoundsTo.of_sign (h : rounds f (decide (v < 0)) |v| r) : RoundsTo f v r := by
  refine ⟨_, h, ?_⟩
  by_cases hv : v < 0
  · simp [hv, abs_of_neg hv]
  · simp [hv, abs_of_nonneg (not_lt.1 hv)]

theorem RoundsTo.of_value {neg : Bool} {x : ℚ} (hx : 0 ≤ x) (h : rounds f neg x r)
    (hv : (if neg then -x else x) = v) : RoundsTo f v r := by
  have habs : |v| = x := by
    rw [← hv]
    cases neg <;> simp [abs_of_nonneg hx]
  exact ⟨neg, by rwa [habs], by rwa [habs]⟩

theorem roundsTo_fpOfInt (f : FpFormat) (n : Int) : RoundsTo f n (fpOfInt f n) :=
  .of_sign (by simpa using rounds_fpOfInt f n)

theorem roundsTo_fpOfRatio (f : FpFormat) (neg : Bool) (num : Nat) {den : Nat} (hd : 0 < den) :
    RoundsTo f (if neg then -((num : ℚ) / den) else num / den) (fpOfRatio f neg num den) :=
  .of_value (by positivity) (rounds_fpOfRatio f neg num den hd) rfl

theorem HasValue.roundsTo_add (ha : HasValue a u) (hb : HasValue b v) : RoundsTo f (u + v) (fpAdd f a b) := by
  obtain ⟨n1, m1, e1, rfl, rfl⟩ := ha
  obtain ⟨n2, m2, e2, rfl, rfl⟩ := hb
  by_cases h0 : fpValue n1 m1 e1 + fpValue n2 m2 e2 = 0
  · rw [fpAdd_of_sum_zero f n1 n2 m1 m2 e1 e2 h0, h0]
    exact .of_value le_rfl (rounds_zero f _) (by simp)
  · exact .of_sign (rounds_fpAdd f n1 n2 m1 m2 e1 e2 h0)

theorem HasValue.neg (ha : HasValue a u) : HasValue (fpNeg a) (-u) := by
  obtain ⟨n, m, e, rfl, rfl⟩ := ha
  exact ⟨!n, m, e, rfl, fpValue_not n m e⟩

theorem HasValue.roundsTo_sub (ha : HasValue a u) (hb : HasValue b v) : RoundsTo f (u - v) (fpSub f a b) := by
  rw [sub_eq_add_neg]
  exact ha.roundsTo_add hb.neg

theorem HasValue.roundsTo_mul (ha : HasValue a u) (hb : HasValue b v) : RoundsTo f (u * v) (fpMul f a b) := by
  obtain ⟨n1, m1, e1, rfl, rfl⟩ := ha
  obtain ⟨n2, m2, e2, rfl, rfl⟩ := hb
  refine .of_value (by positivity) (rounds_fpMul f n1 n2 m1 m2 e1 e2) ?_
  cases n1 <;> cases n2 <;> simp [fpValue]

theorem HasValue.roundsTo_div (ha : HasValue a u) (hb : HasValue b v) (hv : v ≠ 0) :
    RoundsTo f (u / v) (fpDiv f a b) := by
  obtain ⟨n1, m1, e1, rfl, rfl⟩ := ha
  obtain ⟨n2, m2, e2, rfl, rfl⟩ := hb
  have hm : m2 ≠ 0 := by
    rintro rfl
    exact hv (by simp [fpValue])
  refine .of_value (by positivity) (rounds_fpDiv f n1 n2 m1 m2 e1 e2 hm) ?_
  cases n1 <;> cases n2 <;> simp [fpValue, neg_div, div_neg]

/-- An integer of the format's precision is its own rounding. -/
theorem RoundsTo.hasValue_intCast {n : Int} (h : RoundsTo f n r) (hn : n.natAbs < 2 ^ fpPrecision f) :
    HasValue r n := by
  obtain ⟨neg, hr, hsign⟩ := h
  rw [← Int.cast_abs, Int.abs_eq_natAbs, Int.cast_natCast] at hr hsign
  obtain ⟨m, e, rfl, hval⟩ := rounds_natCast hn hr
  exact ⟨neg, m, e, rfl, by rw [fpValue, hval, hsign]⟩

/-- The conversion of an integer of the format's precision is exact (R261). -/
theorem hasValue_fpOfInt {n : Int} (hn : n.natAbs < 2 ^ fpPrecision f) : HasValue (fpOfInt f n) n :=
  (roundsTo_fpOfInt f n).hasValue_intCast hn

theorem RoundsTo.hasValue_zero (h : RoundsTo f 0 r) : HasValue r 0 := by
  simpa using RoundsTo.hasValue_intCast (n := 0) (by simpa using h) (Nat.two_pow_pos _)

end

/-! ## Values that stay finite -/

/-- Both formats reach far past the numbers of the model's expressions. -/
theorem two_pow_hundred_le (f : FpFormat) : (2 : ℚ) ^ 100 ≤ 2 ^ fpMaxExp f := by
  rw [← zpow_natCast]
  exact zpow_le_zpow_right₀ one_le_two (by cases f <;> decide)

/-- `a` is finite and its magnitude is at most `B`. -/
def MagnitudeLe (a : Fp) (B : ℚ) : Prop := ∃ v, HasValue a v ∧ |v| ≤ B

section

variable {f : FpFormat} {a b r : Fp} {v A B : ℚ}

theorem HasValue.magnitudeLe (h : HasValue a v) (hv : |v| ≤ B) : MagnitudeLe a B := ⟨v, h, hv⟩

theorem HasValue.magnitudeLe_of_natAbs_le {n : Int} {N : Nat} (h : HasValue a n) (hn : n.natAbs ≤ N) :
    MagnitudeLe a N := by
  refine h.magnitudeLe ?_
  rw [← Int.cast_abs, Int.abs_eq_natAbs]
  exact_mod_cast hn

theorem RoundsTo.magnitudeLe (h : RoundsTo f v r) (hv : |v| ≤ B) (hB : B ≤ 2 ^ 100) :
    MagnitudeLe r (2 * B) := by
  obtain ⟨neg, hr, -⟩ := h
  obtain ⟨m, e, rfl, hm⟩ := magnitude_of_rounds (abs_nonneg v) ((hv.trans hB).trans (two_pow_hundred_le f)) hr
  refine ⟨fpValue neg m e, ⟨neg, m, e, rfl, rfl⟩, ?_⟩
  have hmag : |fpValue neg m e| = m * 2 ^ e := by
    have hpos : (0 : ℚ) ≤ (m : ℚ) * 2 ^ e := by positivity
    cases neg <;> simp [fpValue, abs_of_nonneg hpos]
  linarith

theorem MagnitudeLe.add (ha : MagnitudeLe a A) (hb : MagnitudeLe b B) (h : A + B ≤ 2 ^ 100) :
    MagnitudeLe (fpAdd f a b) (2 * (A + B)) := by
  obtain ⟨u, hau, hu⟩ := ha
  obtain ⟨v, hbv, hv⟩ := hb
  exact (hau.roundsTo_add hbv).magnitudeLe ((abs_add_le u v).trans (add_le_add hu hv)) h

theorem MagnitudeLe.neg (ha : MagnitudeLe a A) : MagnitudeLe (fpNeg a) A := by
  obtain ⟨u, hau, hu⟩ := ha
  exact hau.neg.magnitudeLe (by rwa [abs_neg])

theorem MagnitudeLe.sub (ha : MagnitudeLe a A) (hb : MagnitudeLe b B) (h : A + B ≤ 2 ^ 100) :
    MagnitudeLe (fpSub f a b) (2 * (A + B)) :=
  ha.add hb.neg h

theorem MagnitudeLe.mul (ha : MagnitudeLe a A) (hb : MagnitudeLe b B) (h : A * B ≤ 2 ^ 100) :
    MagnitudeLe (fpMul f a b) (2 * (A * B)) := by
  obtain ⟨u, hau, hu⟩ := ha
  obtain ⟨v, hbv, hv⟩ := hb
  refine (hau.roundsTo_mul hbv).magnitudeLe ?_ h
  rw [abs_mul]
  exact mul_le_mul hu hv (abs_nonneg v) ((abs_nonneg u).trans hu)

/-- A finite factor of 0 makes the product 0: the other factor is neither infinite nor NaN. -/
theorem MagnitudeLe.mul_of_zero (hb : MagnitudeLe b B) (ha : HasValue a 0) : HasValue (fpMul f a b) 0 := by
  obtain ⟨v, hbv, -⟩ := hb
  have hprod := ha.roundsTo_mul (f := f) hbv
  rw [zero_mul] at hprod
  exact hprod.hasValue_zero

/-- Adding 0 to an integer of the format's precision is exact. -/
theorem HasValue.add_of_zero {n : Int} (ha : HasValue a n) (hb : HasValue b 0) (hn : n.natAbs < 2 ^ fpPrecision f) :
    HasValue (fpAdd f a b) n := by
  have hsum := ha.roundsTo_add (f := f) hb
  rw [add_zero] at hsum
  exact hsum.hasValue_intCast hn

end

/-! ## The cubic -/

/-- A constant of R236 times a sample's value: no constant is above 5/2. -/
theorem magnitudeLe_const64_mul {a : Fp} (neg : Bool) {num den : Nat} (ha : MagnitudeLe a (2 ^ 14)) (hd : 0 < den)
    (h : (num : ℚ) / den ≤ 5 / 2) : MagnitudeLe (mul64 (const64 neg num den) a) (2 * (2 * (5 / 2) * 2 ^ 14)) := by
  have h0 : (0 : ℚ) ≤ (num : ℚ) / den := by positivity
  have hconst : MagnitudeLe (const64 neg num den) (2 * (5 / 2)) := by
    refine (roundsTo_fpOfRatio .binary64 neg num hd).magnitudeLe ?_ (by norm_num)
    cases neg <;> simpa [abs_of_nonneg h0] using h
  exact hconst.mul ha (by norm_num)

theorem natAbs_sext8_mul_vol_le (k : Channel) (b : Byte) : (sext8 b * (k.vol.toNat : Int)).natAbs ≤ 2 ^ 14 := by
  have hb : (sext8 b).natAbs ≤ 2 ^ 7 := by
    have := sext8_range b
    omega
  calc (sext8 b * (k.vol.toNat : Int)).natAbs = (sext8 b).natAbs * k.vol.toNat := by
        rw [Int.natAbs_mul, Int.natAbs_natCast]
    _ ≤ 2 ^ 7 * 2 ^ 7 := Nat.mul_le_mul hb k.vol.isLt.le
    _ = 2 ^ 14 := by norm_num

/-- The conversion of a scaled sample is exact (R236). -/
theorem hasValue_scaled64 (k : Channel) (b : Byte) :
    HasValue (scaled64 k b) ((sext8 b * (k.vol.toNat : Int) : Int) : ℚ) :=
  hasValue_fpOfInt ((natAbs_sext8_mul_vol_le k b).trans_lt (by decide))

theorem magnitudeLe_scaled64 (k : Channel) (b : Byte) : MagnitudeLe (scaled64 k b) (2 ^ 14) := by
  exact_mod_cast (hasValue_scaled64 k b).magnitudeLe_of_natAbs_le (natAbs_sext8_mul_vol_le k b)

section

variable {c l0 l1 l2 x : Fp}

/-- The coefficient of `x` is finite. -/
theorem exists_magnitudeLe_splineB1 (hc : MagnitudeLe c (2 ^ 14)) (h1 : MagnitudeLe l1 (2 ^ 14)) :
    ∃ B, MagnitudeLe (splineB1 c l1) B := by
  have hterm := magnitudeLe_const64_mul true hc two_pos (num := 1) (by norm_num)
  have hterm1 := magnitudeLe_const64_mul false h1 two_pos (num := 1) (by norm_num)
  exact ⟨_, hterm.add hterm1 (by norm_num)⟩

/-- The coefficient of `x·x` is finite. -/
theorem exists_magnitudeLe_splineB2 (hc : MagnitudeLe c (2 ^ 14)) (h0 : MagnitudeLe l0 (2 ^ 14))
    (h1 : MagnitudeLe l1 (2 ^ 14)) (h2 : MagnitudeLe l2 (2 ^ 14)) : ∃ B, MagnitudeLe (splineB2 c l0 l1 l2) B := by
  have hterm0 := magnitudeLe_const64_mul false h0 two_pos (num := 5) (by norm_num)
  have hterm1 := magnitudeLe_const64_mul false h1 one_pos (num := 2) (by norm_num)
  have hterm2 := magnitudeLe_const64_mul false h2 two_pos (num := 1) (by norm_num)
  exact ⟨_, ((hc.sub hterm0 (by norm_num)).add hterm1 (by norm_num)).sub hterm2 (by norm_num)⟩

/-- The coefficient of `x·x·x` is finite. -/
theorem exists_magnitudeLe_splineB3 (hc : MagnitudeLe c (2 ^ 14)) (h0 : MagnitudeLe l0 (2 ^ 14))
    (h1 : MagnitudeLe l1 (2 ^ 14)) (h2 : MagnitudeLe l2 (2 ^ 14)) : ∃ B, MagnitudeLe (splineB3 c l0 l1 l2) B := by
  have hterm := magnitudeLe_const64_mul true hc two_pos (num := 1) (by norm_num)
  have hterm0 := magnitudeLe_const64_mul false h0 two_pos (num := 3) (by norm_num)
  have hterm1 := magnitudeLe_const64_mul false h1 two_pos (num := 3) (by norm_num)
  have hterm2 := magnitudeLe_const64_mul false h2 two_pos (num := 1) (by norm_num)
  exact ⟨_, ((hterm.add hterm0 (by norm_num)).sub hterm1 (by norm_num)).add hterm2 (by norm_num)⟩

/-- Where `x` is 0 and every coefficient is finite, the three terms after the first add nothing (R236). -/
theorem splineOut_of_zero {n : Int} (hx : HasValue x 0) (h0 : HasValue l0 n) (hn : n.natAbs ≤ 2 ^ 14)
    (hc : MagnitudeLe c (2 ^ 14)) (h1 : MagnitudeLe l1 (2 ^ 14)) (h2 : MagnitudeLe l2 (2 ^ 14)) :
    HasValue (splineOut x c l0 l1 l2) n := by
  have hexact : n.natAbs < 2 ^ fpPrecision .binary64 := hn.trans_lt (by decide)
  have h0le : MagnitudeLe l0 (2 ^ 14) := by exact_mod_cast h0.magnitudeLe_of_natAbs_le hn
  have hxle : MagnitudeLe x 0 := hx.magnitudeLe (by simp)
  have hxx : HasValue (mul64 x x) 0 := hxle.mul_of_zero hx
  have hxxx : HasValue (mul64 (mul64 x x) x) 0 := hxle.mul_of_zero hxx
  obtain ⟨_, hb1⟩ := exists_magnitudeLe_splineB1 hc h1
  obtain ⟨_, hb2⟩ := exists_magnitudeLe_splineB2 hc h0le h1 h2
  obtain ⟨_, hb3⟩ := exists_magnitudeLe_splineB3 hc h0le h1 h2
  have hsum1 : HasValue (add64 l0 (mul64 x (splineB1 c l1))) n := h0.add_of_zero (hb1.mul_of_zero hx) hexact
  exact (hsum1.add_of_zero (hb2.mul_of_zero hxx) hexact).add_of_zero (hb3.mul_of_zero hxxx) hexact

end

/-- At a multiple of the period the position is exactly 0 (R235). -/
theorem splinePos_of_mod_zero {k : Channel} (hper : k.per ≠ 0) (h : k.evtime.toNat % k.per.toNat = 0) :
    HasValue (splinePos k) 0 := by
  have hperQ : ((k.per.toNat : Int) : ℚ) ≠ 0 := by exact_mod_cast (per_toNat_pos hper).ne'
  have hden : HasValue (fpOfInt .binary64 (k.per.toNat : Int)) ((k.per.toNat : Int) : ℚ) :=
    hasValue_fpOfInt (k.per.isLt.trans (by decide))
  have hnum : HasValue (fpOfInt .binary64 ((0 : Nat) : Int)) ((0 : Int) : ℚ) := hasValue_fpOfInt (by decide)
  have hquot := hnum.roundsTo_div (f := .binary64) hden hperQ
  rw [Int.cast_zero, zero_div] at hquot
  rw [splinePos, h]
  exact hquot.hasValue_zero

/-- At position 0 every term of the cubic but the first is 0, and what is left is the previous sample (R236, R240). -/
theorem cspline_of_mod_zero {k : Channel} (hper : k.per ≠ 0) (h : k.evtime.toNat % k.per.toNat = 0) :
    cspline k = prevVol k := by
  have hout := splineOut_of_zero (splinePos_of_mod_zero hper h) (hasValue_scaled64 k k.lastSample0)
    (natAbs_sext8_mul_vol_le k k.lastSample0) (magnitudeLe_scaled64 k k.currentSample)
    (magnitudeLe_scaled64 k k.lastSample1) (magnitudeLe_scaled64 k k.lastSample2)
  exact hout.fpTrunc_eq

/-- Settles O45: the cubic is the model's own in the order of log 17, its value at position 0 is exact, and truncation is
the floor of the magnitude under the sign. -/
theorem cubicFollowsItsRule : Obligations.CubicFollowsItsRule :=
  ⟨fun k _ hper => ⟨rfl, fun hpos => congrArg (masked k.adkMask) (cspline_of_mod_zero hper hpos)⟩, fpTrunc_spec⟩

end Sys2Proof.Machine
end

section
/-! SUPPORT. The filter pipeline (spec/44_filter.md R260 to R271): what one sample makes of a record under each setting, the
LED's selection, the conversion to 16 bits, and the two records of a sample event. -/

namespace Sys2Proof.Machine

/-! ## The conversion (R268) -/

theorem sat16_of_ge {v : Int} (h : 32767 ≤ v) : sat16 v = 32767 := by unfold sat16; omega

theorem sat16_of_le {v : Int} (h : v ≤ -32768) : sat16 v = -32768 := by unfold sat16; omega

theorem toOutput_range (o : Fp) : -32768 ≤ toOutput o ∧ toOutput o ≤ 32767 := by
  cases o with
  | nan => decide
  | inf neg => cases neg <;> decide
  | fin neg m e => exact sat16_range _

/-- A value that is an integer converts to it, saturated. -/
theorem HasValue.toOutput_eq {a : Fp} {n : Int} (h : HasValue a n) : toOutput a = sat16 n := by
  obtain ⟨neg, m, e, rfl, hv⟩ := h
  exact congrArg sat16 (HasValue.fpTrunc_eq ⟨neg, m, e, rfl, hv⟩)

section

variable {neg : Bool} {m : Nat} {e : Int}

/-- A value of at least 32767 truncates to at least 32767. -/
theorem toOutput_fin_of_ge (h : 32767 ≤ fpValue neg m e) : toOutput (.fin neg m e) = 32767 := by
  obtain ⟨-, hlt⟩ := (fpTrunc_spec neg m e).1 (by linarith)
  have htrunc : (32767 : ℚ) < fpTrunc (.fin neg m e) + 1 := h.trans_lt hlt
  exact sat16_of_ge (Int.lt_add_one_iff.1 (by exact_mod_cast htrunc))

/-- A value of at most -32768 truncates to at most -32768. -/
theorem toOutput_fin_of_le (h : fpValue neg m e ≤ -32768) : toOutput (.fin neg m e) = -32768 := by
  obtain ⟨-, hlt⟩ := (fpTrunc_spec neg m e).2 (by linarith)
  have htrunc : (fpTrunc (.fin neg m e) : ℚ) - 1 < -32768 := hlt.trans_le h
  exact sat16_of_le (Int.sub_one_lt_iff.1 (by exact_mod_cast htrunc))

/-- Between the bounds the conversion is truncation. -/
theorem toOutput_fin_of_between (hlo : -32768 < fpValue neg m e) (hhi : fpValue neg m e < 32767) :
    toOutput (.fin neg m e) = fpTrunc (.fin neg m e) := by
  obtain ⟨hnonneg, hnonpos⟩ := fpTrunc_spec neg m e
  have hrange : (-32768 : ℚ) ≤ fpTrunc (.fin neg m e) ∧ (fpTrunc (.fin neg m e) : ℚ) ≤ 32767 := by
    rcases le_total 0 (fpValue neg m e) with h | h
    · obtain ⟨hle, hlt⟩ := hnonneg h
      exact ⟨by linarith, by linarith⟩
    · obtain ⟨hle, hlt⟩ := hnonpos h
      exact ⟨by linarith, by linarith⟩
  exact sat16_of_range (by exact_mod_cast hrange.1) (by exact_mod_cast hrange.2)

end

/-! ## One sample under each setting (R262 to R266, R269) -/

section

variable {cfg : Cfg} {led : Bool} {r : FilterRec} {x : Int}

theorem filterSample_of_off (h : cfg.filter = .off) : filterSample cfg led r x = { record := r, out := sat16 x } := by
  rw [filterSample, h]

theorem filterSample_of_a500 (h : cfg.filter = .a500) :
    filterSample cfg led r x =
      { record := (filterA500 cfg.fp cfg.coefs r (fpOfInt cfg.fp x)).record
        out := selectOutput led (filterA500 cfg.fp cfg.coefs r (fpOfInt cfg.fp x)) } := by
  rw [filterSample, h]

theorem filterSample_of_a1200 (h : cfg.filter = .a1200) :
    filterSample cfg led r x =
      { record := (filterA1200 cfg.fp cfg.coefs r (fpOfInt cfg.fp x)).record
        out := selectOutput led (filterA1200 cfg.fp cfg.coefs r (fpOfInt cfg.fp x)) } := by
  rw [filterSample, h]

theorem filterSample_of_a500e (h : cfg.filter = .a500e) :
    filterSample cfg led r x =
      { record := (filterEnhanced cfg.fp cfg.coefs.a500e r (fpOfInt cfg.fp x)).record
        out := selectOutput led (filterEnhanced cfg.fp cfg.coefs.a500e r (fpOfInt cfg.fp x)) } := by
  rw [filterSample, h]

theorem filterSample_of_a1200e (h : cfg.filter = .a1200e) :
    filterSample cfg led r x =
      { record := (filterEnhanced cfg.fp cfg.coefs.a1200e r (fpOfInt cfg.fp x)).record
        out := selectOutput led (filterEnhanced cfg.fp cfg.coefs.a1200e r (fpOfInt cfg.fp x)) } := by
  rw [filterSample, h]

end

/-- A sample either passes by the record, or goes through a topology's step, which is made without the LED. -/
theorem filterSample_cases (cfg : Cfg) (r : FilterRec) (x : Int) :
    (∀ led, filterSample cfg led r x = { record := r, out := sat16 x }) ∨
      ∃ st : FilterStep, ∀ led, filterSample cfg led r x = { record := st.record, out := selectOutput led st } := by
  cases h : cfg.filter with
  | off => exact .inl fun _ => filterSample_of_off h
  | a500 => exact .inr ⟨_, fun _ => filterSample_of_a500 h⟩
  | a1200 => exact .inr ⟨_, fun _ => filterSample_of_a1200 h⟩
  | a500e => exact .inr ⟨_, fun _ => filterSample_of_a500e h⟩
  | a1200e => exact .inr ⟨_, fun _ => filterSample_of_a1200e h⟩

/-- Settles O47: OFF saturates its input, and every topology's output is a conversion. -/
theorem filterOutputSaturates : Obligations.FilterOutputSaturates := by
  intro cfg led r x
  rcases filterSample_cases cfg r x with h | ⟨st, h⟩ <;> rw [h led]
  · exact sat16_range x
  · exact toOutput_range _

/-- Settles O48: a topology's step is made without the LED, which only selects from it. -/
theorem ledOnlySelectsTheOutput : Obligations.LedOnlySelectsTheOutput := by
  intro cfg r x
  rcases filterSample_cases cfg r x with h | ⟨st, h⟩ <;> rw [h true, h false]

/-! ## The input (R261) -/

/-- Every integer below 2^24 in magnitude has the precision of either format. -/
theorem hasValue_filterInput (f : FpFormat) {x : Int} (hlo : -(2 ^ 24) < x) (hhi : x < 2 ^ 24) :
    HasValue (fpOfInt f x) x := by
  have hprec : 2 ^ 24 ≤ 2 ^ fpPrecision f := by cases f <;> decide
  exact hasValue_fpOfInt (lt_of_lt_of_le (by omega) hprec)

/-- Settles O49: an input within the precision is its own rounding, and an integer value truncates to itself. -/
theorem filterInputIsExact : Obligations.FilterInputIsExact := by
  intro f x hlo hhi
  have hvalue := hasValue_filterInput f hlo hhi
  exact ⟨hvalue, hvalue.fpTrunc_eq⟩

/-! ## The A1200 topology (R263) -/

/-- A1200 has no first RC stage: `rc1` passes through its sample unread. -/
theorem filterSample_a1200_rc1 {cfg : Cfg} (h : cfg.filter = .a1200) (led : Bool) (r : FilterRec) (x : Int) (z : Fp) :
    filterSample cfg led { r with rc1 := z } x =
      { record := { (filterSample cfg led r x).record with rc1 := z }, out := (filterSample cfg led r x).out } := by
  rw [filterSample_of_a1200 h, filterSample_of_a1200 h]
  rfl

/-- With the LED off A1200's output is its exact input, saturated. -/
theorem filterSample_a1200_out_ledOff {cfg : Cfg} (h : cfg.filter = .a1200) (r : FilterRec) {x : Int}
    (hlo : -(2 ^ 24) < x) (hhi : x < 2 ^ 24) : (filterSample cfg false r x).out = sat16 x := by
  rw [filterSample_of_a1200 h]
  exact (hasValue_filterInput cfg.fp hlo hhi).toOutput_eq

/-- Settles O50: each setting's equation in the rules' own expressions, the conversion between and beyond its bounds, and
A1200's missing stage. -/
theorem topologiesFollowTheirRules : Obligations.TopologiesFollowTheirRules := by
  refine ⟨?topologies, ⟨rfl, rfl, rfl⟩, ?conversion, ?a1200⟩
  case topologies =>
    intro cfg led r x f xin rc boost biquad scale enhanced
    cases h : cfg.filter with
    | off => exact filterSample_of_off h
    | a500 => exact filterSample_of_a500 h
    | a1200 => exact filterSample_of_a1200 h
    | a500e => exact filterSample_of_a500e h
    | a1200e => exact filterSample_of_a1200e h
  case conversion =>
    intro neg m e o
    obtain ⟨hnonneg, hnonpos⟩ := fpTrunc_spec neg m e
    refine ⟨toOutput_fin_of_ge, toOutput_fin_of_le, fun hlo hhi => ?_, fun hlo hhi => ?_⟩
    · have ho : o = _ := toOutput_fin_of_between (by linarith) hhi
      exact ho ▸ hnonneg hlo
    · have ho : o = _ := toOutput_fin_of_between hlo (by linarith)
      exact ho ▸ hnonpos hhi
  case a1200 =>
    intro cfg led r x z h
    exact ⟨filterSample_a1200_rc1 h led r x z, filterSample_a1200_out_ledOff h r⟩

/-! ## The two records of a sample event (R267) -/

/-- Each record takes one sample of its own side's sum at tier 2 and above, and stays below. -/
theorem sampleEvent_filters (s : State) :
    (sampleEvent s).filterL =
        (if producing s then (filterSample s.cfg s.led s.filterL (mixLeft (voices s))).record else s.filterL) ∧
      (sampleEvent s).filterR =
        if producing s then (filterSample s.cfg s.led s.filterR (mixRight (voices s))).record else s.filterR := by
  rcases sampleEvent_cases s with ⟨hp, h⟩ | ⟨hp, h⟩ <;> rw [h, hp]
  · obtain ⟨hL, hR, -⟩ := produceFrame_output { s with nextSampleEvtime := s.sampleEvtime }
    exact ⟨hL, hR⟩
  · exact ⟨rfl, rfl⟩

/-- Settles O51: what a sample event makes of one side's record does not mention the other's. -/
theorem filterSidesAreIndependent : Obligations.FilterSidesAreIndependent := by
  intro s r
  obtain ⟨hL, hR⟩ := sampleEvent_filters s
  obtain ⟨hL', -⟩ := sampleEvent_filters { s with filterR := r }
  obtain ⟨-, hR'⟩ := sampleEvent_filters { s with filterL := r }
  exact ⟨hL'.trans hL.symm, hR'.trans hR.symm⟩

end Sys2Proof.Machine
end

section
/-! SUPPORT. The output buffer and the port at the stall (spec/45_output_buffer.md R280 to R285): the bytes of a frame, what
one frame does to a buffer below its chunk, which inputs a step takes past a held command, when a command is held and when
it completes, and what READ makes of a request. -/

namespace Sys2Proof.Machine

/-! ## Frames (R280) -/

/-- The two bytes of a sample, high byte first, are its two's-complement value. -/
theorem sampleBytes_spec {v : Int} (hlo : -32768 ≤ v) (hhi : v ≤ 32767) :
    ∃ hi lo : Byte, sampleBytes v = [hi, lo] ∧ (hi ++ lo).toInt = v := by
  refine ⟨_, _, rfl, ?_⟩
  calc ((BitVec.ofInt 16 v).extractLsb' 8 8 ++ (BitVec.ofInt 16 v).extractLsb' 0 8).toInt
    _ = (BitVec.ofInt 16 v).toInt := congrArg BitVec.toInt BitVec.extractLsb'_append_extractLsb'
    _ = v := BitVec.toInt_ofInt_eq_self (by decide) hlo (Int.lt_add_one_of_le hhi)

theorem monoMix_range {oL oR : Int} (hL : -32768 ≤ oL ∧ oL ≤ 32767) (hR : -32768 ≤ oR ∧ oR ≤ 32767) :
    -32768 ≤ monoMix oL oR ∧ monoMix oL oR ≤ 32767 := by
  rw [monoMix, Int.tdiv_eq_ediv]
  split
  · omega
  · rw [Int.sign_eq_one_of_pos (by decide)]
    omega

/-- Settles O53: a stereo frame is the bytes of two samples, a mono frame those of their mix, which is in range too. -/
theorem frameIsBigEndian : Obligations.FrameIsBigEndian := by
  intro oL oR hL hL' hR hR'
  obtain ⟨l1, l0, hl, hleft⟩ := sampleBytes_spec hL hL'
  obtain ⟨r1, r0, hr, hright⟩ := sampleBytes_spec hR hR'
  obtain ⟨hM, hM'⟩ := monoMix_range ⟨hL, hL'⟩ ⟨hR, hR'⟩
  have hstereo : frame true oL oR = sampleBytes oL ++ sampleBytes oR := rfl
  exact ⟨⟨l1, l0, r1, r0, by rw [hstereo, hl, hr]; rfl, hleft, hright⟩, sampleBytes_spec hM hM'⟩

/-! ## Filling and flushing (R281, R282) -/

/-- The chunk is whole frames, as the buffer and the request are. -/
theorem frameBytes_dvd_chunk {s : State} (hcfg : cfgInv s) (hpcm : pcmInv s) : frameBytes s.cfg.stereo ∣ chunk s := by
  obtain ⟨-, -, hbytes⟩ := hcfg
  obtain ⟨-, hreq, -⟩ := hpcm
  rcases min_choice s.cfg.bufBytes s.pcm.req with h | h <;> rw [chunk, h]
  · exact Nat.dvd_of_mod_eq_zero hbytes
  · exact Nat.dvd_of_mod_eq_zero hreq

/-- Below the chunk there is room for a whole frame: both are whole frames. -/
theorem fill_add_frameBytes_le_chunk {s : State} (hcfg : cfgInv s) (hpcm : pcmInv s) (hw : s.pcm.waitingRead = false) :
    s.pcm.fill + frameBytes s.cfg.stereo ≤ chunk s := by
  have hchunk := frameBytes_dvd_chunk hcfg hpcm
  obtain ⟨hfill, -, -, -, hroom⟩ := hpcm
  have hbelow : s.pcm.fill < chunk s := hroom hw
  exact Nat.le_of_lt_add_of_dvd (Nat.add_lt_add_right hbelow _)
    (Nat.dvd_add (Nat.dvd_of_mod_eq_zero hfill) (dvd_refl _)) hchunk

theorem flushCheck_of_short {s : State} (h : s.pcm.buf.length < chunk s) : flushCheck s = s :=
  if_neg (Nat.not_le_of_lt h)

/-- A full buffer is sent and taken off the request; the block waits where nothing of the request is left. -/
theorem flushCheck_of_full {s : State} (hw : s.pcm.waitingRead = false) (h : s.pcm.buf.length = chunk s) :
    flushCheck s =
      { s with
        out := s.out ++ [.emit s.pcm.buf]
        pcm :=
          { buf := []
            req := s.pcm.req - s.pcm.buf.length
            waitingRead := decide (s.pcm.req = s.pcm.buf.length) } } := by
  have hle : s.pcm.buf.length ≤ s.pcm.req := h.trans_le (Nat.min_le_right _ _)
  have hleft : s.pcm.req - s.pcm.buf.length = 0 ↔ s.pcm.req = s.pcm.buf.length := by omega
  rcases flushCheck_cases s with ⟨-, he⟩ | ⟨hshort, -⟩
  · rw [he]
    simp [PcmBuffer.fill, hleft, hw]
  · exact absurd h hshort.ne

/-- Settles O54: the frame fits, and the flush that follows it finds the buffer short of the chunk or at it. -/
theorem emitCarriesExactlyTheChunk : Obligations.EmitCarriesExactlyTheChunk := by
  intro s oL oR hcfg hpcm hw bytes t
  have hlength : bytes.length = s.pcm.fill + frameBytes s.cfg.stereo := by
    rw [List.length_append, frame_length]
    rfl
  refine ⟨?fits, fun hshort => ?below, fun hfull => ?full⟩
  case fits => exact hlength.trans_le (fill_add_frameBytes_le_chunk hcfg hpcm hw)
  case below => exact flushCheck_of_short (s := { s with pcm := { s.pcm with buf := bytes } }) hshort
  case full => exact flushCheck_of_full (s := { s with pcm := { s.pcm with buf := bytes } }) hw hfull

/-! ## The control port while a command is held (R283) -/

theorem takeControl_eq_none {l : List Input} (h : ∀ x ∈ l, x.isControl = false) : takeControl l = none := by
  induction l with
  | nil => rfl
  | cons x xs ih =>
    obtain ⟨hx, hxs⟩ := List.forall_mem_cons.mp h
    simp [takeControl, hx, ih hxs]

/-- With a command held and no control-port input there is nothing the block can take. -/
theorem step_of_held_without_control {s : State} (hheld : s.held ≠ none) (hin : ∀ x ∈ s.inputs, x.isControl = false) :
    step s = .next s := by
  have hfetch : fetch s = .idle := by
    simp [fetch, takeInput, Option.isSome_iff_ne_none.mpr hheld, takeControl_eq_none hin]
  rw [step, hfetch]

/-- Settles O6: the oldest control-port word is taken past the rest and run, or nothing is taken. -/
theorem heldCommandLeavesControlPortOpen : Obligations.HeldCommandLeavesControlPortOpen := by
  refine ⟨fun s before rest w t cfg i hheld hin hbefore hdec => ?_, fun s => step_of_held_without_control⟩
  exact (step_of_control hin hbefore fun hnone => absurd hnone hheld).trans (runWord_of_instr hdec _)

/-! ## Where a command is held, and where it completes (R283) -/

theorem stalled_eq_true {s : State} (hw : s.pcm.waitingRead = true) (htier : 2 ≤ s.cfg.produceSound.val) :
    stalled s = true := by
  rw [stalled, hw, producing_iff.mpr htier]
  rfl

theorem stalled_eq_false {s : State} (htier : s.cfg.produceSound.val < 2) : stalled s = false := by
  have hsilent : producing s = false := decide_eq_false (Nat.not_le_of_lt htier)
  rw [stalled, hsilent, Bool.and_false]

/-- A register-port command is not taken while another is held, by a faulted block either (log 18). -/
theorem exec_of_held {i : Instr} {s : State} (hport : i.port = .register) (hheld : s.held ≠ none) :
    exec i s = .next s := by
  rw [exec_of_register hport]
  simp [registerCommand, Option.isSome_iff_ne_none.mpr hheld]

/-- A catch-up that opens at the stall with cycles to run holds its command there, no iteration run (R200). -/
theorem settle_arm_of_stalled {i : Instr} {s : State} (hp : (arm i s).pendingCycles ≠ 0)
    (hst : stalled (arm i s) = true) : settle (arm i s) = .next (arm i s) := by
  have hdrain : drain (drainBound (arm i s)) (arm i s) = arm i s := drain_of_ended (.inr hst)
  obtain ⟨he, -⟩ := settle_stalled (cmd := i) rfl (hdrain.symm ▸ hp) (hdrain.symm ▸ hst)
  rw [he, hdrain]

/-- Settles O29: the elapsed cycles are the budget, and the loop ends at the stall before its first iteration. -/
theorem stalledPortHoldsTheCommand : Obligations.StalledPortHoldsTheCommand := by
  refine ⟨fun i s hport hwf hacc hp htime hw htier => ?_, fun i s => exec_of_held⟩
  have hbudget : (arm i s).pendingCycles = s.now - s.lastCycles := by rw [arm_pendingCycles, hp, zero_add]
  have helapsed : (arm i s).pendingCycles ≠ 0 := by
    rw [hbudget]
    exact sub_ne_zero.mpr (BitVec.ne_of_lt htime).symm
  rw [exec_of_accepts hport hwf hacc, settle_arm_of_stalled helapsed (stalled_eq_true (s := arm i s) hw htier), arm,
    hp, zero_add]

/-- Settles O30: the catch-up ends with no cycles left or at the stall (R205), and below tier 2 there is no stall. -/
theorem belowTierTwoEveryCommandCompletes : Obligations.BelowTierTwoEveryCommandCompletes := by
  intro i s hinv _ _ htier hacc
  obtain ⟨hblock, -⟩ := inv_iff.mp hinv
  have hend := (hblock.arm i).drain_ends (Nat.le_succ _)
  have hnostall : stalled (drain (drainBound (arm i s)) (arm i s)) = false := by
    obtain ⟨_, _, _, _, _, _, _, _, _, hframe⟩ := drain_frame (drainBound (arm i s)) (arm i s)
    rw [hframe]
    exact stalled_eq_false htier
  exact ⟨hacc, hend.resolve_right (Bool.eq_false_iff.mp hnostall)⟩

/-! ## READ (R285) -/

section

variable {nbytes : Word} {s : State}

theorem execRead_of_outstanding (hdeaf : deaf s = false) (hw : s.pcm.waitingRead = false) :
    execRead nbytes s = .next (takeFault .protocolViolation s) := by
  simp [execRead, hdeaf, hw]

theorem execRead_of_zero (hdeaf : deaf s = false) (hw : s.pcm.waitingRead = true)
    (hn : readCount s.cfg.stereo nbytes = 0) : execRead nbytes s = .next s := by
  simp [execRead, hdeaf, hw, hn]

theorem execRead_of_request (hdeaf : deaf s = false) (hw : s.pcm.waitingRead = true)
    (hn : readCount s.cfg.stereo nbytes ≠ 0) :
    execRead nbytes s = resume (acceptRead (readCount s.cfg.stereo nbytes) s) := by
  simp [execRead, hdeaf, hw, hn]

theorem resume_of_free (hheld : s.held = none) : resume s = .next s := by
  simp [resume, hheld]

theorem resume_of_held {cmd : Instr} (hheld : s.held = some cmd) : resume s = settle s := by
  simp [resume, hheld]

end

/-- Settles O14: READ's checks in R285's order; a resumed catch-up is iterations up to its end or to the next stall, and
under the invariant it reaches one of them (R205). -/
theorem readTakesItsRequest : Obligations.ReadTakesItsRequest := by
  intro nbytes s hf ha
  have hdeaf := deaf_eq_false hf ha
  refine ⟨rfl, execRead_of_outstanding hdeaf, fun hw frameLen n hframe hn => ?_,
    fun cmd hport hvalue => completesAs_of_effect hport hvalue rfl⟩
  obtain rfl : n = readCount s.cfg.stereo nbytes := by rw [hn, hframe]; rfl
  refine ⟨execRead_of_zero hdeaf hw, fun hn hfree => ?free, ?held⟩
  case free => exact (execRead_of_request hdeaf hw hn).trans (resume_of_free hfree)
  case held =>
    intro cmd hn hheld u d
    have hu : u.held = some cmd := hheld
    have hrun : exec (.read nbytes) s = settle u := (execRead_of_request hdeaf hw hn).trans (resume_of_held hu)
    obtain ⟨j, -, hiterated, hrunning⟩ := drain_iterates (drainBound u) u
    refine ⟨⟨j, hiterated, hrunning⟩, fun hp => hrun.trans (settle_completed hu hp), fun hp hst => ?_, fun hinv => ?_⟩
    · obtain ⟨hstays, hstill⟩ := settle_stalled hu hp hst
      exact ⟨hrun.trans hstays, hstill⟩
    · obtain ⟨hblock, -⟩ := inv_iff.mp hinv
      exact (hblock.acceptRead hw hn).drain_ends (Nat.le_succ _)

end Sys2Proof.Machine
end

section
/-! SUPPORT. Faults and interrupt requests (spec/60_exceptions.md): a block that takes only a RESET ignores the rest (R300,
R333); and the block by itself only raises request bits, so that one falls by an INTREQ write or at RESET alone (R303). -/

namespace Sys2Proof.Machine

variable {c : ChanIdx} {cmd : Instr} {s t u : State}

/-! ## A block that takes only a RESET (R300, R333) -/

theorem deaf_iff : deaf s = true ↔ s.faulted = true ∨ s.awaitingReset = true := Bool.or_eq_true_iff

theorem exec_of_deaf {i : Instr} (hdeaf : deaf s = true) (hi : i ≠ .reset) : exec i s = .next s := by
  cases hport : i.port with
  | register => rw [exec_of_register hport, registerCommand, if_pos hdeaf]
  | control =>
    cases i with
    | read n => exact if_pos hdeaf
    | reset => exact absurd rfl hi
    | _ => cases hport

/-- A rejected word only leaves the queue (log 19). -/
theorem runWord_of_rejected_of_deaf {p : Port} {w : CmdWord} {why : Reject} (hdec : decodeOn p w = .rejected why)
    (hdeaf : deaf s = true) : runWord p w s = .next s := by
  simp [runWord, hdec, illegalCommand, hdeaf]

/-- Settles O9: a command finds the block deaf before any other check, and so does the fault of a word that its port
rejects. -/
theorem faultedBlockIgnoresAllButReset : Obligations.FaultedBlockIgnoresAllButReset := by
  refine ⟨fun i s h hi => exec_of_deaf (deaf_iff.mpr h) hi, fun s w t rest why h hheld hin hdec => ?_,
    fun s w t cfg before rest why h hin hbefore hfree hdec => ?_⟩
  · exact (step_of_register hheld hin).trans (runWord_of_rejected_of_deaf hdec (deaf_iff.mpr h))
  · exact (step_of_control hin hbefore hfree).trans (runWord_of_rejected_of_deaf hdec (deaf_iff.mpr h))

/-! ## The block keeps every request (R303) -/

/-- Every request bit that is set in `s` is set in `t`. -/
def RequestsKept (s t : State) : Prop := ∀ c : ChanIdx, irq s c = true → irq t c = true

namespace RequestsKept

theorem of_intreq_eq (h : t.intreq = s.intreq) : RequestsKept s t := fun _ hs => by rw [irq, h]; exact hs

theorem refl (s : State) : RequestsKept s s := of_intreq_eq rfl

theorem trans (h : RequestsKept s t) (h' : RequestsKept t u) : RequestsKept s u := fun c hs => h' c (h c hs)

/-- Bits added to INTREQ clear none. -/
theorem of_intreq_or {bits : BitVec 4} (h : t.intreq = s.intreq ||| bits) : RequestsKept s t := fun c hs => by
  rw [irq, h, BitVec.getLsbD_or, Bool.or_eq_true]
  exact .inl hs

end RequestsKept

theorem modChan_requestsKept (c : ChanIdx) (f : Channel → Channel) (s : State) : RequestsKept s (s.modChan c f) :=
  .of_intreq_eq rfl

theorem raiseIrq_requestsKept (c : ChanIdx) (s : State) : RequestsKept s (raiseIrq c s) := .of_intreq_or rfl

theorem attachedStep_requestsKept (attach raise : Bool) (c : ChanIdx) (own next : Channel → Channel) (s : State) :
    RequestsKept s (attachedStep attach raise c own next s) := by
  have hintreq := attachedStep_intreq attach raise c own next s
  cases raise with
  | false => exact .of_intreq_eq hintreq
  | true => exact .of_intreq_or hintreq

theorem handler1_requestsKept (c : ChanIdx) (s : State) : RequestsKept s (handler1 c s) :=
  (raiseIrq_requestsKept c s).trans (modChan_requestsKept c _ _)

theorem handler2_requestsKept (c : ChanIdx) (s : State) : RequestsKept s (handler2 c s) := by
  rw [handler2_eq]
  exact attachedStep_requestsKept _ _ c _ _ s

theorem handler3_requestsKept (c : ChanIdx) (s : State) : RequestsKept s (handler3 c s) := by
  by_cases hstop : (s.chan c).dmaen = false ∧ irq s c = true
  · rw [handler3, if_pos hstop]
    exact modChan_requestsKept c _ s
  · rw [handler3_eq hstop]
    exact attachedStep_requestsKept _ _ c _ _ s

/-- A channel event asks for an interrupt or leaves the request bits (R162 to R166). -/
theorem advanceChannel_requestsKept (c : ChanIdx) (s : State) : RequestsKept s (advanceChannel c s) := by
  unfold advanceChannel
  split
  · exact handler1_requestsKept c s
  split
  · exact modChan_requestsKept c _ s
  split
  · exact handler2_requestsKept c s
  split
  · exact handler3_requestsKept c s
  · exact .of_intreq_eq rfl

/-! ## The line services and the data word -/

theorem dmaStart_requestsKept (c : ChanIdx) (s : State) : RequestsKept s (dmaStart c s) := by
  unfold dmaStart
  split
  · exact (modChan_requestsKept c startChannel s).trans (advanceChannel_requestsKept c _)
  · exact .refl s

theorem lineService_requestsKept (c : ChanIdx) (s : State) : RequestsKept s (lineService c s) := by
  rw [lineService_eq]
  exact (dmaStart_requestsKept c s).trans (modChan_requestsKept c _ _)

theorem effectLineSync_requestsKept (s : State) : RequestsKept s (effectLineSync s) :=
  (((lineService_requestsKept 0 s).trans (lineService_requestsKept 1 _)).trans (lineService_requestsKept 2 _)).trans
    (lineService_requestsKept 3 _)

theorem writeDat_requestsKept (c : ChanIdx) (data : Word) (s : State) : RequestsKept s (writeDat c data s) := by
  rw [writeDat_eq]
  dsimp only
  split
  · exact .of_intreq_or rfl
  · exact modChan_requestsKept c _ s

/-! ## The catch-up -/

theorem dispatchChannel_requestsKept (c : ChanIdx) (s : State) : RequestsKept s (dispatchChannel c s) := by
  unfold dispatchChannel
  split
  · exact advanceChannel_requestsKept c s
  · exact .refl s

theorem dispatchAll_requestsKept (s : State) : RequestsKept s (dispatchAll s) :=
  (((dispatchChannel_requestsKept 0 s).trans (dispatchChannel_requestsKept 1 _)).trans
    (dispatchChannel_requestsKept 2 _)).trans (dispatchChannel_requestsKept 3 _)

theorem OutputFrame.requestsKept (h : OutputFrame s t) : RequestsKept s t := by
  obtain ⟨_, _, _, _, _, rfl⟩ := h
  exact .of_intreq_eq rfl

theorem iteration_requestsKept (s : State) : RequestsKept s (iteration s) :=
  have helapse : RequestsKept s (elapse (best s) s) := .of_intreq_eq rfl
  (helapse.trans (dispatchSample_frame _).requestsKept).trans (dispatchAll_requestsKept _)

theorem drain_requestsKept (n : Nat) (s : State) : RequestsKept s (drain n s) :=
  drain_keeps (RequestsKept s) (fun t _ _ h => h.trans (iteration_requestsKept t)) n s (.refl s)

/-! ## The INTREQ write (R130) -/

/-- `cmd` is an INTREQ write with SET = 0 that names the request bit of channel `c` (R130). -/
def ClearsRequest (cmd : Instr) (c : ChanIdx) : Prop :=
  ∃ data : Word, cmd = .intreq data ∧ data.getLsbD 15 = false ∧ data.getLsbD (7 + c.val) = true

/-- A set bit that R128's SET/CLR form does not clear stays set. -/
theorem setClr_getLsbD {n k : Nat} {old bits : BitVec n} {set : Bool} (hold : old.getLsbD k = true) :
    (setClr old bits set).getLsbD k = true ∨ (set = false ∧ bits.getLsbD k = true) := by
  have hk : k < n := BitVec.lt_of_getLsbD hold
  cases set <;> simp [setClr, hold, hk]

theorem effectIntreq_keeps_or_clears (data : Word) (hs : irq s c = true) :
    irq (effectIntreq data s) c = true ∨ ClearsRequest (.intreq data) c := by
  refine (setClr_getLsbD hs).imp id fun ⟨hclear, hnamed⟩ => ⟨data, rfl, hclear, ?_⟩
  rwa [BitVec.getLsbD_extractLsb', decide_eq_true c.isLt, Bool.true_and] at hnamed

/-- Of all effects INTREQ's alone clears a request (R303). -/
theorem effect_keeps_or_clears (cmd : Instr) (hs : irq s c = true) :
    irq (effect cmd s) c = true ∨ ClearsRequest cmd c := by
  cases cmd with
  | intreq data => exact effectIntreq_keeps_or_clears data hs
  | aud0dat data | aud1dat data | aud2dat data | aud3dat data => exact .inl (writeDat_requestsKept _ data s c hs)
  | lineSync => exact .inl (effectLineSync_requestsKept s c hs)
  | _ => exact .inl hs

/-! ## The commands -/

/-- The catch-up of a held command keeps every request; then the command is still held, or takes effect. -/
theorem settle_keeps_or_clears (hheld : s.held = some cmd) (h : settle s = .next t) (hs : irq s c = true) :
    irq t c = true ∨ ClearsRequest cmd c := by
  have hdrain := drain_requestsKept (drainBound s) s c hs
  rcases settle_next h with ⟨hp, -⟩ | ⟨-, -, rfl⟩
  · rw [settle_completed hheld hp] at h
    cases h
    exact effect_keeps_or_clears (s := { drain (drainBound s) s with held := none }) cmd hdrain
  · exact .inl hdrain

theorem registerCommand_keeps_or_clears {ok : Bool} (h : registerCommand cmd ok s = .next t) (hs : irq s c = true) :
    irq t c = true ∨ ClearsRequest cmd c := by
  rcases registerCommand_next h with ⟨-, rfl⟩ | ⟨-, rfl⟩ | ⟨-, rfl⟩ | ⟨-, rfl⟩ | ⟨-, -, -, -, hsettle⟩
  · exact .inl hs
  · exact .inl hs
  · exact .inl hs
  · exact .inl hs
  · exact settle_keeps_or_clears (s := arm cmd s) rfl hsettle hs

/-- A READ clears a request only through the held command that it lets go on (R285). -/
theorem execRead_keeps_or_clears {n : Word} (h : execRead n s = .next t) (hs : irq s c = true) :
    irq t c = true ∨ ∃ cmd, s.held = some cmd ∧ ClearsRequest cmd c := by
  rcases execRead_next h with ⟨-, rfl⟩ | ⟨-, rfl⟩ | ⟨-, rfl⟩ | ⟨-, -, -, ⟨-, rfl⟩ | ⟨hne, hsettle⟩⟩
  · exact .inl hs
  · exact .inl hs
  · exact .inl hs
  · exact .inl hs
  · obtain ⟨cmd, hheld⟩ := Option.ne_none_iff_exists'.mp hne
    exact (settle_keeps_or_clears (s := acceptRead _ s) hheld hsettle hs).imp id fun hclear => ⟨cmd, hheld, hclear⟩

/-- Settles O57: a command keeps every request but those that it, or the held command a READ resumes, clears by R130. -/
theorem requestBitFallsOnlyByHost : Obligations.RequestBitFallsOnlyByHost := by
  intro i s t c h hs ht
  have hfell : ¬irq t c = true := Bool.eq_false_iff.mp ht
  cases hport : i.port with
  | register =>
    rw [exec_of_register hport] at h
    obtain ⟨data, hi, hclear, hnamed⟩ := (registerCommand_keeps_or_clears h hs).resolve_left hfell
    exact .inr ⟨data, hclear, hnamed, .inl hi⟩
  | control =>
    cases i with
    | read n =>
      obtain ⟨cmd, hheld, data, rfl, hclear, hnamed⟩ := (execRead_keeps_or_clears h hs).resolve_left hfell
      exact .inr ⟨data, hclear, hnamed, .inr ⟨⟨n, rfl⟩, hheld⟩⟩
    | reset => exact .inl rfl
    | _ => cases hport

end Sys2Proof.Machine
end

section
/-! SUPPORT. RESET (spec/70_reset_and_hazards.md R330 to R332): which names, numbers and coefficients R331 takes, the record
that is then held, and the reset value of every field. -/

namespace Sys2Proof.Machine

/-! ## The names (R231, R331) -/

theorem exists_interpOfName_iff {n : InterpName} : (∃ i, interpOfName n = some i) ↔ n ≠ .other := by
  cases n <;> simp [interpOfName]

theorem exists_filterOfName_iff {n : FilterName} : (∃ t, filterOfName n = some t) ↔ n ≠ .other := by
  cases n <;> simp [filterOfName]

theorem exists_formatOfName_iff {n : FpName} : (∃ f, formatOfName n = some f) ↔ n ≠ .other := by
  cases n <;> simp [formatOfName]

theorem interpOfName_some {n : InterpName} {i : Interp} (h : interpOfName n = some i) :
    (n, i) ∈ [(.default, .nearest), (.rh, .linear), (.linear, .linear), (.crux, .crux), (.cspline, .cspline),
      (.anti, .anti)] := by
  cases n <;> cases h <;> decide

theorem filterOfName_some {n : FilterName} {t : FilterKind} (h : filterOfName n = some t) :
    (n, t) ∈ [(.off, .off), (.a500, .a500), (.a1200, .a1200), (.a500e, .a500e), (.a1200e, .a1200e)] := by
  cases n <;> cases h <;> decide

theorem formatOfName_some {n : FpName} {f : FpFormat} (h : formatOfName n = some f) :
    (n, f) ∈ [(.binary32, .binary32), (.binary64, .binary64)] := by
  cases n <;> cases h <;> decide

/-- The format as the statement about R331 writes it. -/
theorem formatOfName_eq_ite {n : FpName} {f : FpFormat} (h : formatOfName n = some f) :
    (if n = .binary32 then FpFormat.binary32 else .binary64) = f := by
  cases n <;> cases h <;> rfl

/-! ## The numbers (R331) -/

theorem rangesValid_iff {r : RawCfg} :
    rangesValid r = true ↔ (1 ≤ r.maxhpos ∧ r.maxhpos ≤ 65535) ∧ (1 ≤ r.sampleEvtime ∧ r.sampleEvtime ≤ 2 ^ 28 - 1) ∧
      r.produceSound ≤ 3 ∧ r.fastTier ≤ 3 ∧ (1 ≤ r.bufBytes ∧ r.bufBytes ≤ 4088) ∧
      r.bufBytes % (if r.stereo then 4 else 2) = 0 := by
  rw [rangesValid, decide_eq_true_eq, Nat.lt_iff_le_pred (by decide)]
  simp only [frameBytes, and_assoc]

/-- Numbers in the ranges of R331 fit their fields, so the record holds them unchanged. -/
theorem buildCfg_numbers {r : RawCfg} (h : rangesValid r = true) (i : Interp) (t : FilterKind) (f : FpFormat) :
    (buildCfg r i t f).maxhpos.toNat = r.maxhpos ∧ (buildCfg r i t f).sampleEvtime.toNat = r.sampleEvtime ∧
      (buildCfg r i t f).produceSound.val = r.produceSound ∧ (buildCfg r i t f).fastTier.val = r.fastTier := by
  obtain ⟨⟨-, hmax⟩, ⟨-, hsev⟩, hsound, htier, -⟩ := rangesValid_iff.mp h
  exact ⟨Nat.mod_eq_of_lt (by omega), Nat.mod_eq_of_lt (by omega), Nat.mod_eq_of_lt (by omega),
    Nat.mod_eq_of_lt (by omega)⟩

/-! ## The coefficients (R260, R331) -/

theorem fpIsFinite_iff {a : Fp} : fpIsFinite a = true ↔ ∃ (neg : Bool) (m : Nat) (e : Int), a = .fin neg m e := by
  cases a <;> simp [fpIsFinite]

theorem biquadFinite_iff {k : BiquadCoefs} : biquadFinite k = true ↔ ∀ a ∈ biquadList k, fpIsFinite a = true := by
  simp [biquadFinite, biquadList, and_assoc]

theorem enhancedFinite_iff {k : EnhancedCoefs} :
    enhancedFinite k = true ↔ ∀ a ∈ enhancedList k, fpIsFinite a = true := by
  simp only [enhancedFinite, enhancedList, Bool.and_eq_true, biquadFinite_iff, List.cons_append, List.forall_mem_cons,
    List.forall_mem_append, and_assoc]

/-- The check of a setting reads the coefficients that the setting uses. -/
theorem coefsFinite_iff {n : FilterName} {t : FilterKind} (h : filterOfName n = some t) {k : CoefSets} :
    coefsFinite t k = true ↔ ∀ a ∈ usedCoefs n k, fpIsFinite a = true := by
  cases n <;> cases h
  case off | a500 | a1200 => simp [coefsFinite, usedCoefs]
  case a500e | a1200e => exact enhancedFinite_iff

theorem usedCoefs_convertCoefs (f : FpFormat) (n : FilterName) (k : CoefSets) :
    usedCoefs n (convertCoefs f k) = (usedCoefs n k).map (fpConvert f) := by
  cases n <;> rfl

theorem allCoefs_convertCoefs (f : FpFormat) (k : CoefSets) :
    allCoefs (convertCoefs f k) = (allCoefs k).map (fpConvert f) := rfl

/-- The test of R331 on coefficients that are rounded first (log 11). -/
theorem coefsFinite_convertCoefs_iff {n : FilterName} {t : FilterKind} (h : filterOfName n = some t) {f : FpFormat}
    {k : CoefSets} :
    coefsFinite t (convertCoefs f k) = true ↔
      ∀ a ∈ usedCoefs n k, ∃ (neg : Bool) (m : Nat) (e : Int), fpConvert f a = .fin neg m e := by
  simp only [coefsFinite_iff h, usedCoefs_convertCoefs, List.forall_mem_map, fpIsFinite_iff]

/-! ## The configuration (R331) -/

/-- A configuration whose names are listed is taken where its ranges and coefficients are valid. -/
theorem loadCfg_of_valid {r : RawCfg} {i : Interp} {t : FilterKind} {f : FpFormat} (hi : interpOfName r.interp = some i)
    (ht : filterOfName r.filter = some t) (hf : formatOfName r.filterFp = some f) (hr : rangesValid r = true)
    (hk : coefsFinite t (convertCoefs f r.coefs) = true) : loadCfg r = some (buildCfg r i t f) := by
  simp [loadCfg, hi, ht, hf, hr, hk]

/-- Settles O13: the check reads the names, the ranges and the used coefficients, and numbers in range fit their fields. -/
theorem validConfigurationsAreTaken : Obligations.ValidConfigurationsAreTaken := by
  refine ⟨fun r => ⟨fun h => ?_, ?_⟩, fun r cfg h => ?_⟩
  · obtain ⟨cfg, hload⟩ := Option.isSome_iff_exists.mp h
    obtain ⟨i, t, f, hi, ht, hf, hr, hk, -⟩ := loadCfg_some hload
    obtain ⟨hmax, hsev, hsound, htier, hbuf, hframes⟩ := rangesValid_iff.mp hr
    rw [formatOfName_eq_ite hf]
    exact ⟨exists_interpOfName_iff.mp ⟨i, hi⟩, exists_filterOfName_iff.mp ⟨t, ht⟩, exists_formatOfName_iff.mp ⟨f, hf⟩,
      hmax, hsev, hsound, htier, hbuf, hframes, (coefsFinite_convertCoefs_iff ht).mp hk⟩
  · rintro ⟨hinterp, hfilter, hformat, hmax, hsev, hsound, htier, hbuf, hframes, hcoefs⟩
    obtain ⟨i, hi⟩ := exists_interpOfName_iff.mpr hinterp
    obtain ⟨t, ht⟩ := exists_filterOfName_iff.mpr hfilter
    obtain ⟨f, hf⟩ := exists_formatOfName_iff.mpr hformat
    rw [formatOfName_eq_ite hf] at hcoefs
    have hr : rangesValid r = true := rangesValid_iff.mpr ⟨hmax, hsev, hsound, htier, hbuf, hframes⟩
    exact Option.isSome_of_eq_some (loadCfg_of_valid hi ht hf hr ((coefsFinite_convertCoefs_iff ht).mpr hcoefs))
  · obtain ⟨i, t, f, hi, ht, hf, hr, -, rfl⟩ := loadCfg_some h
    obtain ⟨hmax, hsev, hsound, htier⟩ := buildCfg_numbers hr i t f
    exact ⟨hmax, hsev, rfl, hsound, htier, rfl, rfl, allCoefs_convertCoefs f r.coefs, interpOfName_some hi,
      filterOfName_some ht, formatOfName_some hf⟩

/-! ## The reset state (R330, R332) -/

/-- A RESET word with a bit set in its zero field is illegal (R92, R95). -/
theorem decodeOn_reset_operand {v : BitVec 28} (hv : v ≠ 0) (p : Port) :
    decodeOn p (0x9#4 ++ v) = .rejected .reservedBits := by
  obtain ⟨hk, hvalue⟩ := fields_append_value 0x9#4 v
  have hword : decodeWord (0x9#4 ++ v) = .rejected .reservedBits := by
    simpa [decodeWord, whenZero, hk, hvalue] using hv
  rw [decodeOn, hword]

theorem exec_reset_of_invalid {s : State} (h : loadCfg s.cfgIn = none) :
    exec .reset s = .next (takeFault .configError s) := by
  rcases execReset_next s with ⟨cfg, hload, -⟩ | ⟨-, he⟩
  · cases hload.symm.trans h
  · exact he

theorem exec_reset_of_valid {s : State} {cfg : Cfg} (h : loadCfg s.cfgIn = some cfg) :
    exec .reset s = .next (afterReset s.now cfg s) := by
  rcases execReset_next s with ⟨_, hload, he⟩ | ⟨hload, -⟩
  · cases hload.symm.trans h
    exact he
  · cases hload.symm.trans h

@[simp] theorem afterReset_chan (s : State) (now : BitVec 64) (cfg : Cfg) (c : ChanIdx) :
    (afterReset now cfg s).chan c = Channel.reset := by
  fin_cases c <;> rfl

/-- Every field of a filter record after reset is positive zero (R49, R332). -/
theorem filterRec_reset_fields {r : FilterRec} (h : r = FilterRec.reset) :
    ∀ x ∈ [r.rc1, r.rc2, r.rc3, r.bq0.x0, r.bq0.x1, r.bq0.y0, r.bq0.y1, r.bq1.x0, r.bq1.x1, r.bq1.y0, r.bq1.y1],
      x = .fin false 0 0 := by
  subst h
  exact fun _ hx => List.eq_of_mem_replicate (n := 11) hx

/-- Settles O12: the RESET word decodes with a zero operand only, and its effect is `afterReset` or the fault. -/
theorem resetSetsEveryField : Obligations.ResetSetsEveryField := by
  refine ⟨⟨rfl, fun _ hx => decodeOn_reset_operand hx .control⟩, fun _ => exec_reset_of_invalid, fun s cfg hload => ?_⟩
  refine ⟨afterReset s.now cfg s, exec_reset_of_valid hload, afterReset_chan s s.now cfg, ?_⟩
  have hfilters (r : FilterRec) (hr : r = (afterReset s.now cfg s).filterL ∨ r = (afterReset s.now cfg s).filterR) :=
    filterRec_reset_fields (r := r) (hr.elim id id)
  exact ⟨rfl, rfl, rfl, rfl, rfl, rfl, rfl, rfl, rfl, rfl, hfilters, rfl, rfl, rfl, rfl, rfl, rfl, rfl, rfl, rfl, rfl, rfl,
    rfl, rfl⟩

end Sys2Proof.Machine
end
